-- ==== Sys2Proof/Word.lean ====
section
/-! DEFINITION. The word types of the engine (00_scope R9, R11, R13; 20_memory R34). -/
namespace Sys2Proof

/-- `u8`: an unsigned byte (R11). -/
abbrev Byte := BitVec 8

/-- `u64`: one lane of the State (R9, R11, R16). -/
abbrev Lane := BitVec 64

/-- The 1600-bit State `S[0..25)`: exactly 25 lanes, never resized (R16, R18). -/
abbrev Lanes := Vector Lane 25

/-- A byte address of the host port, 9 bits wide, 0x000..0x1FF (R10, R34). -/
abbrev PortAddr := BitVec 9

/-- A block: a rate-sized slice of 136 bytes (R9, glossary "Block"). -/
abbrev Block := Vector Byte 136

end Sys2Proof
end

