-- ==== Sys2Proof/Config.lean ====
section
/-! DEFINITION. What an implementation of the engine fixes (R10, R69) and the value the spec leaves free (R36). -/
namespace Sys2Proof

/-- The model argument `RC_SEED_SCOPE` (R10, R69, D10): when the round-constant register is set to its seed.
The value of one machine stands in State (`State.rcSeedScope`); no step changes it. -/
inductive RcSeedScope where
  /-- at the start of every permutation, and by INIT and reset (the default, R69) -/
  | perPermutation
  /-- only by INIT and reset (R69) -/
  | perInit
  deriving DecidableEq, Repr

/-- The `draw` of R36 and R92: the byte a host read of the state window returns while BUSY = 1. It is
left free: no body can be evaluated and no value of it can be proved. The argument is State's count of draws, so
that two draws need not agree. Log entry 6. -/
opaque Config.freeByte : Nat → Byte

end Sys2Proof
end

