-- ==== Sys2Proof/Syntax.lean ====
section
/-! DEFINITION. The command set (30_encoding R52), one constructor per row of spec/opcode_table.json. -/
namespace Sys2Proof

/-- The engine's five commands. No command carries an operand in its byte (R50): FINAL's operand `L` is the value
of LEN latched at issue (R51), so it stands in the latch PEND and not here. -/
inductive Instr where
  /-- 0x00, R96 -/
  | nop
  /-- 0x01, R97 -/
  | init
  /-- 0x02, R98 -/
  | absorb
  /-- 0x03, R99 -/
  | final
  /-- 0x04, R100 -/
  | permute
  deriving DecidableEq, Repr

end Sys2Proof
end

