-- ==== Sys2Proof/WellFormed.lean ====
section
/-! DEFINITION. Well-formed commands: which operand a command admits (30_encoding R51, R54). -/
namespace Sys2Proof

/-- Whether the command may be issued with this value of LEN: FINAL's legal operands are 0..135, every other
command ignores LEN (R51, R54). -/
def Instr.operandOk (i : Instr) (len : Byte) : Bool :=
  match i with
  | .nop => true
  | .init => true
  | .absorb => true
  | .final => len.toNat ≤ 135
  | .permute => true

end Sys2Proof
end

