-- ==== Sys2Proof/Decode.lean ====
section
/-! DEFINITION. The command byte: decoder, total on every byte, and encoder (30_encoding R50, R52, R53, R54). -/
namespace Sys2Proof

/-- Why a byte is no command. -/
inductive DecodeError where
  /-- 0x05..0xFF (R54); a host write of such a byte to CMD raises ILLEGAL_OPCODE (R94) -/
  | illegalOpcode (op : Byte)
  deriving DecidableEq, Repr

/-- The command a byte stands for: a match on all 8 bits, mask 0xFF (R53). -/
def decode (op : Byte) : Except DecodeError Instr :=
  if op = 0x00 then .ok .nop
  else if op = 0x01 then .ok .init
  else if op = 0x02 then .ok .absorb
  else if op = 0x03 then .ok .final
  else if op = 0x04 then .ok .permute
  else .error (.illegalOpcode op)

/-- The one byte of a command (R52, R53). -/
def encode (i : Instr) : Byte :=
  match i with
  | .nop => 0b00000000
  | .init => 0b00000001
  | .absorb => 0b00000010
  | .final => 0b00000011
  | .permute => 0b00000100

/-- The command the decoder reads from a word of spec/opcode_table.json. Every command is exactly one byte (R50),
so a word of any other length, or of more than eight bits, is none. -/
def decodeTableWord (nbits w : Nat) : Option Instr :=
  if nbits = 8 ∧ w < 256 then
    match decode (BitVec.ofNat 8 w) with
    | .ok i => some i
    | .error _ => none
  else none

end Sys2Proof
end

