-- ==== Sys2Proof/Machine/State.lean ====
section
/-! DEFINITION. The state of one engine (10_state R33), the host agent and the order of the agents' steps
(45_commands R91, 20_memory R45), the reasons a step can stop, and the state after reset (R116). -/
namespace Sys2Proof.Machine

/-- Memory as data: (address, byte) pairs in one canonical form, `Memory.wf`. An address that is not listed holds
no value (R117, log entry 4). -/
abbrev Memory := List Host.Cell

/-- The canonical form: addresses strictly rising. No entry can equal what an unlisted address reads as, since
that is no value at all. -/
abbrev Memory.wf (m : Memory) : Prop := m.Pairwise fun c d => c.1 < d.1

/-- STATUS (R27). The reserved bits 7:3 read as 0 and hold no state; `Status.byte` is the byte the host reads. -/
structure Status where
  /-- bit 0: a command is pending -/
  busy : Bool
  /-- bit 1: a FINAL has completed -/
  done : Bool
  /-- bit 2: sticky error flag -/
  err : Bool
  deriving DecidableEq, Repr

/-- ERRCAUSE (R28, R102). The engine never writes 0x05..0xFF, so the register is the five-valued enumeration that
93_implementation_defined U11 allows; `ErrCause.code` is the byte the host reads. -/
inductive ErrCause where
  /-- 0x00: no error -/
  | clear
  /-- 0x01 -/
  | illegalOpcode
  /-- 0x02 -/
  | badLength
  /-- 0x03 -/
  | phase
  /-- 0x04 -/
  | overrun
  deriving DecidableEq, Repr

/-- What the latch PEND holds while a command is pending (R30). -/
structure Pending where
  /-- the command byte -/
  op : Byte
  /-- the value of LEN at issue -/
  len : Byte
  deriving DecidableEq, Repr

/-- The host's statements (R56). `wr` and `rd` are the two port accesses; `label` and `bnz` are the host's own
control flow and touch no port address. Variables and labels are numbered. -/
inductive HostStmt where
  /-- `wr A, V` -/
  | wr (a : PortAddr) (v : Byte)
  /-- `rd A -> t` -/
  | rd (a : PortAddr) (t : Nat)
  /-- `l:` -/
  | label (l : Nat)
  /-- `bnz t, M, l`: go to `l` if `(t & M) != 0` -/
  | bnz (t : Nat) (mask : Byte) (l : Nat)
  deriving DecidableEq, Repr

/-- The host agent (R45, R91): its program in program order, the position of its next statement, and the values
its reads have returned. It is no part of the engine (R24); log entry 10. -/
structure HostAgent where
  prog : List HostStmt
  pos : Nat
  vars : Memory
  deriving DecidableEq, Repr

/-- Who takes the next step of the one total order (R45, R91). -/
inductive Turn where
  /-- the host performs its next statement -/
  | host
  /-- the engine completes the pending command; when none is pending this step is not enabled -/
  | engine
  /-- hardware reset is asserted -/
  | reset
  deriving DecidableEq, Repr

/-- The state (R33). `host`, `turns` and `draws` are the model's own: the other agent, the order in which the agents
move, and the count of free values drawn so far. -/
structure State where
  /-- `S[0..25)` (R16) -/
  lanes : Lanes
  /-- `RC`, hidden (R22) -/
  rc : Lane
  /-- `r`, the rounds the current permutation has completed, 0..24, hidden (R23) -/
  r : Fin 25
  /-- `BLK[0..136)` (R25), at port addresses 0x000..0x087 -/
  blk : Memory
  /-- `LEN` (R26) -/
  len : Byte
  /-- `STATUS` (R27) -/
  status : Status
  /-- `ERRCAUSE` (R28) -/
  errcause : ErrCause
  /-- `PEND`, hidden (R30) -/
  pend : Option Pending
  /-- the model argument `RC_SEED_SCOPE` (R10, R69); constant -/
  rcSeedScope : RcSeedScope
  /-- the host agent (R91) -/
  host : HostAgent
  /-- the coming turns, the next first; log entry 2 says who moves when none is listed -/
  turns : List Turn
  /-- how many draws have been made (log entry 6) -/
  draws : Nat
  deriving DecidableEq, Repr

/-- The model-level faults of R105. The hardware raises no error and sets no flag for either. -/
inductive Fault where
  /-- `UNWRITTEN_BLK` (R105, R117): the host, ABSORB or FINAL reads BLK[j], which nothing has written since reset.
  Safe: the hardware goes on with some byte. -/
  | unwrittenBlk (j : Nat)
  /-- `BLK_HAZARD` (R105, R121): the host writes BLK[j] while a pending command will read it. Safe: the hardware
  goes on with any value the byte held. -/
  | blkHazard (j : Nat)
  deriving DecidableEq, Repr

/-- Reasons for which the model has no meaning. -/
inductive Refusal where
  /-- raised by an arm of `exec` whose instruction has no meaning yet; safe. No arm of this model raises it. -/
  | notModelled (mnemonic : String)
  /-- raised by a completion whose latch holds what no issue ever latches (R94): nothing, an illegal opcode, or
  FINAL with a length above 135. Safe; no run reaches it (log entry 9). -/
  | badLatch
  /-- raised by the host agent: a `bnz` tests a variable no `rd` has assigned (R56 gives it no value). Safe. -/
  | hostUnassigned (t : Nat)
  /-- raised by the host agent: a taken `bnz` names a label its program does not have. Safe. -/
  | hostNoLabel (l : Nat)
  deriving DecidableEq, Repr

/-- The machine right after hardware reset (R33, R116): all lanes 0, RC at its seed, r = 0, no BLK byte with a value,
LEN, STATUS and ERRCAUSE zero, nothing pending. `rcSeedScope` is the spec's default (R10, D10). The model's own
fields start empty (log entry 15). -/
def State.reset : State where
  lanes := Vector.replicate 25 0
  rc := 0x0000000000000001
  r := 0
  blk := []
  len := 0x00
  status := { busy := false, done := false, err := false }
  errcause := .clear
  pend := none
  rcSeedScope := .perPermutation
  host := { prog := [], pos := 0, vars := [] }
  turns := []
  draws := 0

end Sys2Proof.Machine
end

