-- ==== Sys2Proof/Machine/Flags.lean ====
section
/-! DEFINITION. STATUS and ERRCAUSE: the bytes the host reads, and every way a flag is written (10_state R27, R28). -/
namespace Sys2Proof.Machine

/-- The byte of STATUS: `BUSY | DONE<<1 | ERR<<2`, bits 7:3 zero (R27, R92). -/
def Status.byte (x : Status) : Byte :=
  (BitVec.ofBool x.busy).setWidth 8 ||| ((BitVec.ofBool x.done).setWidth 8 <<< 1) |||
    ((BitVec.ofBool x.err).setWidth 8 <<< 2)

/-- The code ERRCAUSE holds (R28, R102). -/
def ErrCause.code (c : ErrCause) : Byte :=
  match c with
  | .clear => 0x00
  | .illegalOpcode => 0x01
  | .badLength => 0x02
  | .phase => 0x03
  | .overrun => 0x04

/-- `R.STATUS.BUSY <- b`. -/
def State.setBusy (b : Bool) (s : State) : State := { s with status := { s.status with busy := b } }

/-- `R.STATUS.DONE <- b`. -/
def State.setDone (b : Bool) (s : State) : State := { s with status := { s.status with done := b } }

/-- `R.STATUS.ERR <- b`. -/
def State.setErr (b : Bool) (s : State) : State := { s with status := { s.status with err := b } }

/-- `R.ERRCAUSE <- c`. -/
def State.setCause (c : ErrCause) (s : State) : State := { s with errcause := c }

end Sys2Proof.Machine
end

