-- ==== Sys2Proof/Machine/Operands.lean ====
section
/-! DEFINITION. Reading and writing one byte of a memory, and the operands of ABSORB and FINAL (30_encoding R51). -/
namespace Sys2Proof.Machine

/-- The byte at an address; none where nothing has been written (R117). -/
def Memory.read : Memory → Nat → Option Byte
  | [], _ => none
  | (b, w) :: m, a => if a = b then some w else Memory.read m a

/-- Store a byte, keeping the canonical form. -/
def Memory.write : Memory → Nat → Byte → Memory
  | [], a, v => [(a, v)]
  | (b, w) :: m, a, v =>
    if a < b then (a, v) :: (b, w) :: m
    else if a = b then (a, v) :: m
    else (b, w) :: Memory.write m a v

/-- The bytes at `a, a+1, …, a+n-1`; a byte without a value is the fault `UNWRITTEN_BLK`, the lowest such address
being named (R105, R117, log entry 18). -/
def Memory.readRange (m : Memory) : Nat → Nat → Except Fault (List Byte)
  | _, 0 => .ok []
  | a, n + 1 =>
    match Memory.read m a with
    | none => .error (.unwrittenBlk a)
    | some b =>
      match Memory.readRange m (a + 1) n with
      | .error f => .error f
      | .ok bs => .ok (b :: bs)

/-- ABSORB's operand: all of `BLK[0..136)`, read at completion (R51, R98). -/
def absorbOperand (s : State) : Except Fault (List Byte) := s.blk.readRange 0 136

/-- FINAL's operand `L`: the length the latch holds, 0..135 (R51, R95). None for a latch that issue never makes. -/
def latchedLen (s : State) : Option Nat :=
  match s.pend with
  | none => none
  | some p => if p.len.toNat ≤ 135 then some p.len.toNat else none

/-- FINAL's data operand: `BLK[0..L)`, read at completion (R51, R99). -/
def finalOperand (L : Nat) (s : State) : Except Fault (List Byte) := s.blk.readRange 0 L

/-- Whether completing the pending command reads BLK[j] (R98, R99, R121): ABSORB reads all of BLK, FINAL only the
bytes below its latched length. -/
def pendingReads (j : Nat) (s : State) : Bool :=
  match s.pend with
  | none => false
  | some p => s.status.busy && (p.op == 0x02 || (p.op == 0x03 && j < p.len.toNat))

end Sys2Proof.Machine
end

