-- ==== Sys2Proof/Machine/Codec.lean ====
section
/-! DEFINITION. The byte/lane codec, little-endian in every lane (44_codec, 20_memory R38). Lengths stand in the types,
so that a length that is not a multiple of 8 cannot be given (R88, U3). -/
namespace Sys2Proof.Machine

/-- The lane of eight bytes: byte k weighs 2^(8k) (R88). -/
def laneOfBytes (b : Fin 8 → Byte) : Lane :=
  (b 0).setWidth 64 + ((b 1).setWidth 64 <<< 8) + ((b 2).setWidth 64 <<< 16) + ((b 3).setWidth 64 <<< 24) +
  ((b 4).setWidth 64 <<< 32) + ((b 5).setWidth 64 <<< 40) + ((b 6).setWidth 64 <<< 48) + ((b 7).setWidth 64 <<< 56)

/-- Byte k of a lane: `(v >> (8k)) & 0xFF` (R89). -/
def byteOfLane (v : Lane) (k : Nat) : Byte :=
  ((v >>> (8 * k)) &&& 0xFF).setWidth 8

/-- `bytesToLanes(b)` (R88). -/
def bytesToLanes {n : Nat} (b : Vector Byte (8 * n)) : Vector Lane n :=
  Vector.ofFn fun j : Fin n => laneOfBytes fun k : Fin 8 => b[8 * j.val + k.val]

/-- `lanesToBytes(l)` (R89). -/
def lanesToBytes {n : Nat} (l : Vector Lane n) : Vector Byte (8 * n) :=
  Vector.ofFn fun i : Fin (8 * n) => byteOfLane l[i.val / 8] (i.val % 8)

end Sys2Proof.Machine
end

