-- ==== Sys2Proof/Machine/Lfsr.lean ====
section
/-! DEFINITION. The round-constant generator (41_round_constants). -/
namespace Sys2Proof.Machine

/-- `RC_SEED` (R9, R69). -/
def rcSeed : Lane := 0x0000000000000001

/-- `RC_TAP` (R9, R68). -/
def rcTap : Lane := 0xC000000000000001

/-- `lfsrNext(c)` (R68): shift left by one, truncated to 64 bits, and XOR the tap if bit 63 was shifted out. -/
def lfsrNext (c : Lane) : Lane :=
  if (c >>> 63) &&& 1 = 1 then (c <<< 1) ^^^ rcTap else c <<< 1

/-- The n-th value from `c`: `lfsrNext^n(c)` (R70, R71). -/
def lfsrIter : Nat → Lane → Lane
  | 0, c => c
  | n + 1, c => lfsrNext (lfsrIter n c)

/-- The constant a permutation starts from (R66, R69): the seed under PER_PERMUTATION, else what RC holds. -/
def startRc (scope : RcSeedScope) (rc : Lane) : Lane :=
  match scope with
  | .perPermutation => rcSeed
  | .perInit => rc

end Sys2Proof.Machine
end

