-- ==== Sys2Proof/Machine/Keccak.lean ====
section
/-! DEFINITION. The five round steps, the round and the 24-round permutation (40_permutation). Every step computes all
lanes of its result from the complete old state (R15, R125), in the one lane layout of R67. -/
namespace Sys2Proof.Machine

/-- `rotateRight(v, n)` (R58). n = 0 is the identity; n is held to 0..63 by its type (U2). -/
def rotateRight (v : Lane) (n : Fin 64) : Lane :=
  if n.val = 0 then v else (v >>> n.val) ||| (v <<< (64 - n.val))

/-- The rotation table SHIFT, in the source's order (R59). -/
def shiftTable : Vector (Fin 64) 25 :=
  #v[0, 36, 3, 41, 18, 1, 44, 10, 45, 2, 62, 6, 43, 15, 61, 28, 55, 25, 21, 56, 27, 20, 39, 8, 14]

/-- The linear lane index of the coordinates: `i = 5*y + x` (R17). -/
def laneIdx (x y : Fin 5) : Fin 25 := ⟨5 * y.val + x.val, by omega⟩

/-- `x = i mod 5` (R17). -/
def laneX (i : Fin 25) : Fin 5 := ⟨i.val % 5, by omega⟩

/-- `y = i div 5` (R17). -/
def laneY (i : Fin 25) : Fin 5 := ⟨i.val / 5, by omega⟩

/-- `c[g]`: the XOR of the five lanes of column-group g (R60). -/
def groupParity (S : Lanes) (g : Fin 5) : Lane :=
  S[laneIdx 0 g] ^^^ S[laneIdx 1 g] ^^^ S[laneIdx 2 g] ^^^ S[laneIdx 3 g] ^^^ S[laneIdx 4 g]

/-- `d[g] = c[(g+4) mod 5] ^ rotateRight(c[(g+1) mod 5], 1)` (R60); addition on `Fin 5` is mod 5. -/
def diffusion (S : Lanes) (g : Fin 5) : Lane :=
  groupParity S (g + 4) ^^^ rotateRight (groupParity S (g + 1)) 1

/-- Step 1, diffusion (R60). -/
def thetaStep (S : Lanes) : Lanes :=
  Vector.ofFn fun i : Fin 25 => S[i] ^^^ diffusion S (laneY i)

/-- Step 2, lane rotation (R61). -/
def rhoStep (S : Lanes) : Lanes :=
  Vector.ofFn fun i : Fin 25 => rotateRight S[i] shiftTable[i]

/-- `src(i) = 5*x + ((x + 3*y) mod 5)`, the lane that step 3 moves to i (R62). -/
def piSource (i : Fin 25) : Fin 25 :=
  ⟨5 * (i.val % 5) + (i.val % 5 + 3 * (i.val / 5)) % 5, by omega⟩

/-- Step 3, lane permutation (R62). -/
def piStep (S : Lanes) : Lanes :=
  Vector.ofFn fun i : Fin 25 => S[piSource i]

/-- Step 4, the nonlinear step (R63). -/
def chiStep (S : Lanes) : Lanes :=
  Vector.ofFn fun i : Fin 25 =>
    S[i] ^^^ ((~~~ S[laneIdx (laneX i + 1) (laneY i)]) &&& S[laneIdx (laneX i + 2) (laneY i)])

/-- Step 5, round-constant injection: lane 0 only (R64). -/
def iotaStep (S : Lanes) (rc : Lane) : Lanes :=
  Vector.ofFn fun i : Fin 25 => if i.val = 0 then S[i] ^^^ rc else S[i]

/-- `round(S, rc)`: the five steps in sequence (R65). -/
@[irreducible] def oneRound (S : Lanes) (rc : Lane) : Lanes :=
  iotaStep (chiStep (piStep (rhoStep (thetaStep S)))) rc

/-- What the 24-round loop carries: the State, RC and the round index r (R23, R66). -/
structure RoundState where
  lanes : Lanes
  rc : Lane
  r : Fin 25
  deriving DecidableEq, Repr

/-- One pass of the loop of R66: round k = r + 1 consumes RC, then RC advances and r becomes k. -/
def loopPass (p : RoundState) : RoundState :=
  { lanes := oneRound p.lanes p.rc, rc := lfsrNext p.rc, r := p.r + 1 }

/-- n passes of the loop. -/
def roundLoop : Nat → RoundState → RoundState
  | 0, p => p
  | n + 1, p => loopPass (roundLoop n p)

/-- `permute(S, RC)` (R66): 24 rounds, unconditionally, from the constant R69 gives. -/
def permuteLanes (scope : RcSeedScope) (S : Lanes) (rc : Lane) : Lanes × Lane :=
  let p := roundLoop 24 { lanes := S, rc := startRc scope rc, r := 0 }
  (p.lanes, p.rc)

end Sys2Proof.Machine
end

