-- ==== Sys2Proof/Machine/Padding.lean ====
section
/-! DEFINITION. The padding rule (42_padding). -/
namespace Sys2Proof.Machine

/-- The zero-run length `z(n) = 136 - ((n+2) mod 136)` (R74). -/
def padZeros (n : Nat) : Nat := 136 - (n + 2) % 136

/-- `pad(n) = [0x80] ++ zeros(z(n)) ++ [0x01]` (R74). -/
def pad (n : Nat) : List Byte :=
  0x80 :: (List.replicate (padZeros n) 0x00 ++ [0x01])

/-- `B(n) = (n + 2) div 136 + 1`, the blocks a padded message of n bytes has (R75, R78). -/
def blockCount (n : Nat) : Nat := (n + 2) / 136 + 1

end Sys2Proof.Machine
end

