-- ==== Sys2Proof/Machine/Sponge.lean ====
section
/-! DEFINITION. The sponge driver and the reference function `hash` (43_sponge). -/
namespace Sys2Proof.Machine

/-- `frame(blk) = blk ++ zeros(64)` (R80): 200 bytes, read as 25 lanes. -/
def frame (blk : Block) : Vector Byte (8 * 25) :=
  blk ++ Vector.replicate 64 (0x00 : Byte)

/-- `absorb(S, blk)`: XOR the frame's 25 lanes into the State (R81). -/
def absorbLanes (S : Lanes) (blk : Block) : Lanes :=
  Vector.ofFn fun i : Fin 25 => S[i] ^^^ (bytesToLanes (frame blk))[i]

/-- `absorbBlock(S, RC, blk) = permute(absorb(S, blk), RC)` (R82). -/
def absorbBlock (scope : RcSeedScope) (q : Lanes × Lane) (blk : Block) : Lanes × Lane :=
  permuteLanes scope (absorbLanes q.1 blk) q.2

/-- `P[136b .. 136b+136)` (R84, R99). Every use gives a sequence that has these bytes; the byte for a position past
its end is never read (log entry 13). -/
def blockAt (P : List Byte) (b : Nat) : Block :=
  Vector.ofFn fun j : Fin 136 => P.getD (136 * b + j.val) 0x00

/-- The successive blocks of a sequence whose length is a multiple of 136, in order (R84, R85). -/
def blocksOf (P : List Byte) : List Block :=
  (List.range (P.length / 136)).map (blockAt P)

/-- Absorb blocks strictly in order, threading S and RC (R84, R85, R99). -/
def absorbBlocks (scope : RcSeedScope) (q : Lanes × Lane) (bs : List Block) : Lanes × Lane :=
  bs.foldl (absorbBlock scope) q

/-- `squeeze(S)`: the first 32 bytes of the State's byte form (R83). -/
def squeeze (S : Lanes) : Vector Byte 32 :=
  Vector.ofFn fun j : Fin 32 => (lanesToBytes S)[j.val]

/-- The all-zero State (R84, R97). -/
def zeroLanes : Lanes := Vector.replicate 25 0

/-- The reference function `hash(m)` (R84). -/
def hashMessage (scope : RcSeedScope) (m : List Byte) : Vector Byte 32 :=
  squeeze (absorbBlocks scope (zeroLanes, rcSeed) (blocksOf (m ++ pad m.length))).1

end Sys2Proof.Machine
end

