-- ==== Sys2Proof/Machine/Ops.lean ====
section
/-! DEFINITION. The shared operations: recording and clearing an error, issue, completion, reset, and the two port
accesses (45_commands R92 to R95, 60_exceptions R103, 70_reset_and_hazards R116). -/
namespace Sys2Proof.Machine

/-- `raise Error(c)` (R103), the engine's whole exception mechanism: the first cause is kept, ERR is set, nothing else
changes. No control is transferred and nothing else is saved (R107). -/
def raiseError (c : ErrCause) (s : State) : State :=
  if s.status.err then s else (s.setCause c).setErr true

/-- What acknowledges an error (R108): ERR and ERRCAUSE cleared, as INIT's completion does (R97). The engine has no
other return from an exception. -/
def clearErrors (s : State) : State := (s.setErr false).setCause .clear

/-- The checks of `issue(v)` in their order; the first that fails decides (R94, R104). -/
def issueError (v : Byte) (s : State) : Option ErrCause :=
  if s.status.busy then some .overrun
  else if v.toNat > 0x04 then some .illegalOpcode
  else if v = 0x03 ∧ s.len.toNat > 135 then some .badLength
  else if (v = 0x02 ∨ v = 0x03) ∧ s.status.done then some .phase
  else none

/-- `PEND <- (v, R.LEN); R.STATUS.BUSY <- 1` (R94): LEN is latched here. -/
def latchCommand (v : Byte) (s : State) : State :=
  { s with pend := some { op := v, len := s.len } }.setBusy true

/-- `issue(v)`: the host's write of v to CMD (R94). -/
def issue (v : Byte) (s : State) : State :=
  match issueError v s with
  | some c => raiseError c s
  | none => latchCommand v s

/-- `PEND <- none; R.STATUS.BUSY <- 0`: the end of every completion (R95). -/
def endCommand (s : State) : State := { s with pend := none }.setBusy false

/-- Write back S and RC after an operation of the sponge. No permutation is under way any more, so r is 0 again (R23,
log entry 7). -/
def setSponge (q : Lanes × Lane) (s : State) : State := { s with lanes := q.1, rc := q.2, r := 0 }

/-- Store one byte of BLK (R93). -/
def writeBlk (j : Nat) (v : Byte) (s : State) : State := { s with blk := s.blk.write j v }

/-- `R.LEN <- v` (R93). -/
def setLen (v : Byte) (s : State) : State := { s with len := v }

/-- Hardware reset (R116): every piece of the engine's state at its reset value, in one step; a pending command is
discarded. The model argument, the host agent, the coming turns and the count of draws are no state of the engine
(log entry 10). -/
def hardwareReset (s : State) : State :=
  { State.reset with rcSeedScope := s.rcSeedScope, host := s.host, turns := s.turns, draws := s.draws }

/-- Whether a read of this address lies in the state window 0x100..0x1C7 (R35). -/
def inWindow (a : PortAddr) : Bool := 0x100 ≤ a.toNat && a.toNat < 0x1C8

/-- Byte j of the state window while BUSY = 0: byte j of `lanesToBytes(S)`, 0 ≤ j < 200 (R36). -/
def windowByte (S : Lanes) (j : Fin 200) : Byte := (lanesToBytes S)[j.val]'(by omega)

/-- `MemRead(a, 1)`: the byte a host read returns (R92). A BLK byte without a value is the fault `UNWRITTEN_BLK`; the
window returns a draw while BUSY (R36). -/
def memRead (a : PortAddr) (s : State) : Except Fault Byte :=
  if a.toNat < 0x088 then
    match s.blk.read a.toNat with
    | some b => .ok b
    | none => .error (.unwrittenBlk a.toNat)
  else if a.toNat = 0x090 then .ok 0x00
  else if a.toNat = 0x091 then .ok s.len
  else if a.toNat = 0x092 then .ok s.status.byte
  else if a.toNat = 0x093 then .ok s.errcause.code
  else if h : 0x100 ≤ a.toNat ∧ a.toNat < 0x1C8 then
    if s.status.busy then .ok (Config.freeByte s.draws)
    else .ok (windowByte s.lanes ⟨a.toNat - 0x100, by omega⟩)
  else .ok 0x00

/-- A read changes no state (R92); the model counts the draws it has made, and only a window read while BUSY makes
one (log entry 6). -/
def countDraw (a : PortAddr) (s : State) : State :=
  if inWindow a && s.status.busy then { s with draws := s.draws + 1 } else s

/-- `MemWrite(a, 1, v)` (R93). Read-only and reserved addresses ignore the write (R37); a write to a BLK byte that the
pending command reads is the fault `BLK_HAZARD` (R121). -/
def memWrite (a : PortAddr) (v : Byte) (s : State) : Host.Outcome State Fault Refusal :=
  if a.toNat < 0x088 then
    if pendingReads a.toNat s then .fault (.blkHazard a.toNat) else .next (writeBlk a.toNat v s)
  else if a.toNat = 0x090 then .next (issue v s)
  else if a.toNat = 0x091 then .next (setLen v s)
  else .next s

/-- The command byte the engine completes next: it fetches nothing from memory (R24), it reads its latch (R95). -/
def fetchOp (s : State) : Option Byte := s.pend.map Pending.op

/-- The turns that remain after the present one. -/
def setTurns (ts : List Turn) (s : State) : State := { s with turns := ts }

end Sys2Proof.Machine
end

