-- ==== Sys2Proof/Machine/Control.lean ====
section
/-! DEFINITION. The completions of NOP and INIT (45_commands R95, R96, R97). -/
namespace Sys2Proof.Machine

/-- NOP's completion (R96): no effect but the end of the BUSY window. -/
def execNop (s : State) : Host.Outcome State Fault Refusal := .next (endCommand s)

/-- INIT's effect (R97): S zero, RC at its seed, DONE, ERR and ERRCAUSE clear. BLK and LEN are not changed. -/
def initEffect (s : State) : State :=
  clearErrors ({ s with lanes := zeroLanes, rc := rcSeed }.setDone false)

/-- INIT's completion (R97). -/
def execInit (s : State) : Host.Outcome State Fault Refusal := .next (endCommand (initEffect s))

end Sys2Proof.Machine
end

