-- ==== Sys2Proof/Machine/Hashing.lean ====
section
/-! DEFINITION. The completions of ABSORB and FINAL (45_commands R95, R98, R99). -/
namespace Sys2Proof.Machine

/-- ABSORB's completion (R98): one full, unpadded block from `BLK[0..136)`, then the permutation. -/
def execAbsorb (s : State) : Host.Outcome State Fault Refusal :=
  match absorbOperand s with
  | .error f => .fault f
  | .ok bs => .next (endCommand (setSponge (absorbBlock s.rcSeedScope (s.lanes, s.rc) (blockAt bs 0)) s))

/-- FINAL's effect once its operands are read (R99): absorb the one or two blocks of `BLK[0..L) ++ pad(L)`, then
DONE <- 1. -/
def finalEffect (bs : List Byte) (s : State) : State :=
  (setSponge (absorbBlocks s.rcSeedScope (s.lanes, s.rc) (blocksOf (bs ++ pad bs.length))) s).setDone true

/-- FINAL's completion (R99), with the length that was latched at issue. -/
def execFinal (s : State) : Host.Outcome State Fault Refusal :=
  match latchedLen s with
  | none => .refused .badLatch
  | some L =>
    match finalOperand L s with
    | .error f => .fault f
    | .ok bs => .next (endCommand (finalEffect bs s))

end Sys2Proof.Machine
end

