-- ==== Sys2Proof/Machine/Permutation.lean ====
section
/-! DEFINITION. The completion of PERMUTE (45_commands R95, R100). -/
namespace Sys2Proof.Machine

/-- PERMUTE's completion (R100): the bare 24-round permutation; DONE and ERR are unchanged. -/
def execPermute (s : State) : Host.Outcome State Fault Refusal :=
  .next (endCommand (setSponge (permuteLanes s.rcSeedScope s.lanes s.rc) s))

end Sys2Proof.Machine
end

