-- ==== Sys2Proof/Machine/Dispatch.lean ====
section
/-! DEFINITION. One arm per command: what its completion does (45_commands R95). -/
namespace Sys2Proof.Machine

/-- `case op of` in `complete()` (R95). -/
def exec (i : Instr) (s : State) : Host.Outcome State Fault Refusal :=
  match i with
  | .nop => Sys2Proof.Machine.execNop s
  | .init => Sys2Proof.Machine.execInit s
  | .absorb => Sys2Proof.Machine.execAbsorb s
  | .final => Sys2Proof.Machine.execFinal s
  | .permute => Sys2Proof.Machine.execPermute s

end Sys2Proof.Machine
end

