-- ==== Sys2Proof/Machine/HostNotation.lean ====
section
/-! DEFINITION. The host's statements and pseudo-instructions (30_encoding R56, R57), the hash procedure (45_commands
R101), and the bus bridge with ENGINE_BASE (00_scope R10, 20_memory R39). -/
namespace Sys2Proof.Machine

/-- `nop` (R57). -/
def hostNop : List HostStmt := [.wr 0x090 0x00]

/-- `init` (R57). -/
def hostInit : List HostStmt := [.wr 0x090 0x01]

/-- `absorb` (R57). -/
def hostAbsorb : List HostStmt := [.wr 0x090 0x02]

/-- `final L` (R57). -/
def hostFinal (L : Byte) : List HostStmt := [.wr 0x091 L, .wr 0x090 0x03]

/-- `permute` (R57). -/
def hostPermute : List HostStmt := [.wr 0x090 0x04]

/-- `wait` (R57): poll STATUS until BUSY = 0, with the fresh label W and the variable t. -/
def hostWait (W t : Nat) : List HostStmt := [.label W, .rd 0x092 t, .bnz t 0x01 W]

/-- `ldblk o, b0 b1 …` (R57), for o + k ≤ 0x087. -/
def hostLdblk : Nat → List Byte → List HostStmt
  | _, [] => []
  | o, b :: bs => .wr (BitVec.ofNat 9 o) b :: hostLdblk (o + 1) bs

/-- `rdstate j -> t` (R57), for 0 ≤ j < 200. -/
def hostRdstate (j t : Nat) : List HostStmt := [.rd (BitVec.ofNat 9 (0x100 + j)) t]

/-- `rddigest -> d` (R57): byte j into variable d + j. -/
def hostRddigest (d : Nat) : List HostStmt := (List.range 32).flatMap fun j => hostRdstate j (d + j)

/-- The k full blocks of the hash procedure: `ldblk 0x000, m_j ; absorb ; wait` (R101), the label of block j being
j + 1. -/
def hostAbsorbAll (t : Nat) (m : List Byte) (k : Nat) : List HostStmt :=
  (List.range k).flatMap fun j =>
    hostLdblk 0x000 ((m.drop (136 * j)).take 136) ++ hostAbsorb ++ hostWait (j + 1) t

/-- The host procedure that computes `hash(m)` (R101). The digest's bytes go to the variables 0..31, and the polls use
the variable 32 (log entry 19). -/
def hashProcedure (m : List Byte) : List HostStmt :=
  let k := m.length / 136
  hostInit ++ hostWait 0 32 ++ hostAbsorbAll 32 m k ++ hostLdblk 0x000 (m.drop (136 * k)) ++
    hostFinal (BitVec.ofNat 8 (m.length % 136)) ++ hostWait (k + 1) 32 ++ hostRddigest 0

/-- Where the port sits (R10, R112): the port address of an address of the host's space, for the platform argument
ENGINE_BASE; none outside the 512-byte port. -/
def busToPort (engineBase A : Nat) : Option PortAddr :=
  if engineBase ≤ A ∧ A < engineBase + 512 then some (BitVec.ofNat 9 (A - engineBase)) else none

/-- A bus bridge's split of a wider write into byte accesses in ascending address order (R39). A byte that lies
outside the port makes no port access (log entry 11). -/
def bridgeWrite (engineBase : Nat) : Nat → List Byte → List HostStmt
  | _, [] => []
  | A, b :: bs =>
    match busToPort engineBase A with
    | some a => .wr a b :: bridgeWrite engineBase (A + 1) bs
    | none => bridgeWrite engineBase (A + 1) bs

/-- A bus bridge's split of a wider read of n bytes, byte k into variable t + k (R39). -/
def bridgeRead (engineBase : Nat) : Nat → Nat → Nat → List HostStmt
  | _, 0, _ => []
  | A, n + 1, t =>
    match busToPort engineBase A with
    | some a => .rd a t :: bridgeRead engineBase (A + 1) n (t + 1)
    | none => bridgeRead engineBase (A + 1) n (t + 1)

/-- The host word of bytes read in ascending order: byte k in bits 8k+7..8k, little-endian (R39). -/
def hostWord : List Byte → Nat
  | [] => 0
  | b :: bs => b.toNat + 256 * hostWord bs

end Sys2Proof.Machine
end

