-- ==== Sys2Proof/Machine/HostAgent.lean ====
section
/-! DEFINITION. A step of the host agent: its next statement (30_encoding R56, 45_commands R91). -/
namespace Sys2Proof.Machine

/-- The host goes on at a position of its program. -/
def hostGoto (k : Nat) (s : State) : State := { s with host := { s.host with pos := k } }

/-- The host's next statement in program order (R45). -/
def hostAdvance (s : State) : State := hostGoto (s.host.pos + 1) s

/-- `t <- b`. -/
def hostSetVar (t : Nat) (b : Byte) (s : State) : State :=
  { s with host := { s.host with vars := s.host.vars.write t b } }

/-- The position of the first statement `l:`. -/
def labelPos : List HostStmt → Nat → Option Nat
  | [], _ => none
  | .label k :: rest, l => if k = l then some 0 else (labelPos rest l).map (· + 1)
  | .wr _ _ :: rest, l => (labelPos rest l).map (· + 1)
  | .rd _ _ :: rest, l => (labelPos rest l).map (· + 1)
  | .bnz _ _ _ :: rest, l => (labelPos rest l).map (· + 1)

/-- `rd A -> t` (R56, R92). -/
def hostRead (a : PortAddr) (t : Nat) (s : State) : Host.Outcome State Fault Refusal :=
  match memRead a s with
  | .error f => .fault f
  | .ok b => .next (hostAdvance (hostSetVar t b (countDraw a s)))

/-- `bnz t, M, l` (R56). -/
def hostBranch (t : Nat) (mask : Byte) (l : Nat) (s : State) : Host.Outcome State Fault Refusal :=
  match s.host.vars.read t with
  | none => .refused (.hostUnassigned t)
  | some b =>
    if b &&& mask = 0 then .next (hostAdvance s)
    else
      match labelPos s.host.prog l with
      | none => .refused (.hostNoLabel l)
      | some k => .next (hostGoto k s)

/-- One statement of the host (R56, R91). A host whose program is over makes no access. -/
def hostStep (s : State) : Host.Outcome State Fault Refusal :=
  match s.host.prog[s.host.pos]? with
  | none => .next s
  | some (.wr a v) => memWrite a v (hostAdvance s)
  | some (.rd a t) => hostRead a t s
  | some (.label _) => .next (hostAdvance s)
  | some (.bnz t mask l) => hostBranch t mask l s

end Sys2Proof.Machine
end

