-- ==== Sys2Proof/Machine/Engine.lean ====
section
/-! DEFINITION. The engine's step, completion (45_commands R91, R95), and what happens when no turn is listed. -/
namespace Sys2Proof.Machine

/-- `complete()` (R95): the latch's command byte is decoded and that command's effect applied, in one step. -/
def complete (s : State) : Host.Outcome State Fault Refusal :=
  match fetchOp s with
  | none => .refused .badLatch
  | some op =>
    match decode op with
    | .error _ => .refused .badLatch
    | .ok i => exec i s

/-- The engine's turn: completion is enabled exactly when BUSY = 1 (R91, R95); otherwise nothing happens (R115). -/
def engineStep (s : State) : Host.Outcome State Fault Refusal :=
  if s.status.busy then complete s else .next s

/-- The step when no turn is listed (log entry 2): a pending command completes, otherwise the host goes on. -/
def defaultStep (s : State) : Host.Outcome State Fault Refusal :=
  if s.status.busy then complete s else hostStep s

/-- A command byte placed where the engine takes its next command from: in the latch, with the present LEN, as an issue
leaves it (R94), and with the engine's turn next. -/
def placeCommand (w : Nat) (s : State) : State :=
  setTurns (.engine :: s.turns) (latchCommand (BitVec.ofNat 8 w) s)

end Sys2Proof.Machine
end

