-- ==== Sys2Proof/Machine/Step.lean ====
section
/-! DEFINITION. One step of the machine: the host, the engine's completion, or reset (45_commands R91, R95). -/
namespace Sys2Proof.Machine

/-- One step of the total order (R45, R91). The turns say who moves; when none is listed, a pending command completes
(R95: after a finite number of host steps) and otherwise the host goes on (log entry 2). -/
def step (s : State) : Host.Outcome State Fault Refusal :=
  match s.turns with
  | .reset :: ts => .next (hardwareReset (setTurns ts s))
  | .engine :: ts => engineStep (setTurns ts s)
  | .host :: ts => hostStep (setTurns ts s)
  | [] => defaultStep s

/-- `s` with the command of a word of spec/opcode_table.json where the engine takes its next command from: in the
latch, with the present LEN, as an issue leaves it (R94), and with the engine's turn next. A command comes there from
reset by a host write to CMD (log entry 1). -/
def State.withFetchWord (s : State) (_nbits w : Nat) : State :=
  placeCommand w s

end Sys2Proof.Machine
end

