-- ==== Sys2Proof/Safety.lean ====
section
/-! DEFINITION. What counts as a safe state and a safe run, in the terms the statements use. -/
namespace Sys2Proof.Machine

/-- A latch as issue makes it (R94): a legal opcode, and a legal length if it is FINAL's. -/
def Pending.legal (p : Pending) : Bool := p.op.toNat ≤ 0x04 && (p.op != 0x03 || p.len.toNat ≤ 135)

/-- The invariant of the machine between two steps. -/
structure EngineInv (s : State) : Prop where
  /-- BLK is in canonical form -/
  blkForm : s.blk.wf
  /-- and lists no byte outside `BLK[0..136)` (R25) -/
  blkBound : ∀ c ∈ s.blk, c.1 < 136
  /-- a command is pending exactly while BUSY = 1 (R27, R30) -/
  busyPend : s.status.busy = s.pend.isSome
  /-- what is pending passed issue's checks (R94) -/
  pendLegal : ∀ p, s.pend = some p → p.legal = true
  /-- an ABSORB or FINAL is pending only in the absorbing phase (R94, R98) -/
  pendPhase : ∀ p, s.pend = some p → p.op = 0x02 ∨ p.op = 0x03 → s.status.done = false
  /-- no permutation is half done (R23) -/
  idleRounds : s.r = 0
  /-- ERR = 0 exactly when ERRCAUSE = 0x00 (R27, R28, R103) -/
  errCause : s.status.err = false ↔ s.errcause = .clear
  /-- RC never holds 0 (R68) -/
  rcNonzero : s.rc ≠ 0
  /-- under PER_PERMUTATION RC holds the seed or the value it has after round 24 (R70) -/
  rcAtRest : s.rcSeedScope = .perPermutation → s.rc = 0x0000000000000001 ∨ s.rc = 0x0000000001000000
  /-- the host's variables are in canonical form -/
  varsForm : s.host.vars.wf

/-- `BLK[0..n)` holds these n bytes. -/
def BlkHolds (bs : List Byte) (s : State) : Prop :=
  ∀ (j : Nat) (h : j < bs.length), s.blk.read j = some bs[j]

/-- What the two states share is the sponge and its parameter: between two commands the host loads BLK and LEN and
issues the next command, which changes none of these. -/
def SameSponge (s t : State) : Prop :=
  t.lanes = s.lanes ∧ t.rc = s.rc ∧ t.rcSeedScope = s.rcSeedScope

/-- From one state to another by ABSORB completions of these blocks, in order, each block standing in BLK when its
ABSORB completes (R85, R87). -/
inductive AbsorbRun : State → List (List Byte) → State → Prop where
  | nil (s t : State) : SameSponge s t → AbsorbRun s [] t
  | cons (s s1 s2 t : State) (blk : List Byte) (rest : List (List Byte)) :
      SameSponge s s1 → blk.length = 136 → BlkHolds blk s1 → exec .absorb s1 = .next s2 → AbsorbRun s2 rest t →
      AbsorbRun s (blk :: rest) t

/-- The step completes a pending command: its turn, or no turn listed (R91, log entry 2). -/
def Completes (s : State) : Prop :=
  s.status.busy = true ∧ (s.turns = [] ∨ ∃ ts, s.turns = .engine :: ts)

/-- The step is a hardware reset (R116). -/
def Resets (s : State) : Prop := ∃ ts, s.turns = .reset :: ts

/-- The step is the host's, and its statement is this one: its turn, or no turn listed and nothing pending (log
entry 2). -/
def HostDoes (q : HostStmt) (s : State) : Prop :=
  ((∃ ts, s.turns = .host :: ts) ∨ (s.turns = [] ∧ s.status.busy = false)) ∧ s.host.prog[s.host.pos]? = some q

/-- Both outcomes are next states that agree but for LEN, or both are the same stop. -/
def AgreeButLen (a b : Host.Outcome State Fault Refusal) : Prop :=
  match a, b with
  | .next s, .next t => { t with len := s.len } = s
  | .fault f, .fault g => f = g
  | .refused f, .refused g => f = g
  | _, _ => False

end Sys2Proof.Machine
end

