-- ==== Sys2Proof/Certificates/Slice0/Obligations.lean ====
section
/-! DEFINITION. The statements for the provers, from the spec's numbered rules. -/
open Sys2Proof Sys2Proof.Machine

/-! Encoding -/

/-- R53: the five patterns, written bit by bit, decode to the commands they stand for, and no other byte does. -/
def Obligations.CommandBytesDecode : Prop :=
  decode 0b00000000 = .ok .nop ∧ decode 0b00000001 = .ok .init ∧ decode 0b00000010 = .ok .absorb ∧
    decode 0b00000011 = .ok .final ∧ decode 0b00000100 = .ok .permute ∧
    ∀ b : Byte, 0x04 < b.toNat → decode b = .error (.illegalOpcode b)

/-- R53, R54: a byte is a command exactly if it is that command's pattern; every other byte is illegal. -/
def Obligations.EveryOtherByteIsIllegal : Prop :=
  ∀ b : Byte, (∀ i, decode b = .ok i ↔ b = encode i) ∧ (b.toNat ≤ 0x04 ↔ ∃ i, decode b = .ok i) ∧
    (0x05 ≤ b.toNat ↔ decode b = .error (.illegalOpcode b))

/-! The permutation -/

/-- R58: the identity at 0, the source's formula above it, and the bit form. -/
def Obligations.RotateRightMovesBits : Prop :=
  ∀ (v : Lane) (n : Fin 64),
    (n = 0 → rotateRight v n = v) ∧
    (1 ≤ n.val → rotateRight v n = (v >>> n.val) ||| (v <<< (64 - n.val))) ∧
    ∀ b < 64, (rotateRight v n).getLsbD b = v.getLsbD ((b + n.val) % 64)

/-- R60: every lane receives the diffusion of its column-group, computed from the old State; a State whose five group
parities are zero is unchanged. -/
def Obligations.ThetaSpreadsGroupParities : Prop :=
  ∀ S : Lanes,
    let lane : Nat → Lane := fun k => S.toList.getD k 0
    let c : Nat → Lane := fun g => lane (5*g) ^^^ lane (5*g+1) ^^^ lane (5*g+2) ^^^ lane (5*g+3) ^^^ lane (5*g+4)
    (∀ i : Fin 25, (thetaStep S)[i] =
      S[i] ^^^ (c ((i.val / 5 + 4) % 5) ^^^ rotateRight (c ((i.val / 5 + 1) % 5)) 1)) ∧
    ((∀ g < 5, c g = 0) → thetaStep S = S)

/-- R59, R61: every lane is rotated right by its entry of the transcribed table; lane 0 never changes, and neither does
a lane of all zeros or all ones. -/
def Obligations.RhoRotatesEveryLane : Prop :=
  ∀ (S : Lanes) (i : Fin 25),
    (rhoStep S)[i] = rotateRight S[i] (([0, 36, 3, 41, 18, 1, 44, 10, 45, 2, 62, 6, 43, 15, 61, 28, 55, 25, 21, 56, 27,
      20, 39, 8, 14] : List (Fin 64)).getD i.val 0) ∧
    (i = 0 → (rhoStep S)[i] = S[i]) ∧
    (S[i] = 0 ∨ S[i] = 0xFFFFFFFFFFFFFFFF → (rhoStep S)[i] = S[i])

/-- R62: lane i is replaced by the old lane at `5*x + (x+3y) mod 5`; the source index is a bijection whose only fixed
point is lane 0. -/
def Obligations.PiMovesLanesBijectively : Prop :=
  (∀ (S : Lanes) (i : Fin 25), (piStep S)[i] = S[piSource i]) ∧
  (∀ i : Fin 25, (piSource i).val = 5 * (i.val % 5) + (i.val % 5 + 3 * (i.val / 5)) % 5) ∧
  Function.Bijective piSource ∧ ∀ i, piSource i = i ↔ i = 0

/-- R63: the nonlinear step, lane by lane and bit by bit; the all-zero and the all-ones State are fixed. -/
def Obligations.ChiMixesRowsBitwise : Prop :=
  (∀ S : Lanes,
    let lane : Nat → Lane := fun k => S.toList.getD k 0
    ∀ i : Fin 25,
      let y := i.val / 5
      let a := lane (5 * y + (i.val % 5 + 1) % 5)
      let b := lane (5 * y + (i.val % 5 + 2) % 5)
      (chiStep S)[i] = S[i] ^^^ (~~~ a &&& b) ∧
      ∀ k < 64, (chiStep S)[i].getLsbD k = (S[i].getLsbD k ^^ (!a.getLsbD k && b.getLsbD k))) ∧
  chiStep (Vector.replicate 25 0) = Vector.replicate 25 0 ∧
  chiStep (Vector.replicate 25 0xFFFFFFFFFFFFFFFF) = Vector.replicate 25 0xFFFFFFFFFFFFFFFF

/-- R64: the injection changes lane 0 only, and rc = 0 makes it the identity; the constants of a permutation under the
default seeding are never 0. -/
def Obligations.IotaChangesLaneZeroOnly : Prop :=
  ∀ (S : Lanes) (rc : Lane),
    (iotaStep S rc)[0] = S[0] ^^^ rc ∧ (∀ i : Fin 25, i ≠ 0 → (iotaStep S rc)[i] = S[i]) ∧ iotaStep S 0 = S ∧
    ∀ k < 24, lfsrIter k 0x0000000000000001 ≠ 0

/-- R65: a round is the five steps in sequence; a round of the zero State leaves the constant in lane 0. -/
def Obligations.RoundIsFiveSteps : Prop :=
  ∀ (S : Lanes) (rc : Lane),
    oneRound S rc = iotaStep (chiStep (piStep (rhoStep (thetaStep S)))) rc ∧
    (oneRound (Vector.replicate 25 0) rc)[0] = rc ∧
    ∀ i : Fin 25, i ≠ 0 → (oneRound (Vector.replicate 25 0) rc)[i] = 0

/-- R66, R69, R70: a permutation runs 24 rounds in order. Under PER_PERMUTATION round k consumes 2^(k-1) whatever RC
held and RC ends at 0x1000000; under PER_INIT the rounds consume the sequence from RC on. The index r counts them. -/
def Obligations.PermutationRunsTwentyFourRounds : Prop :=
  ∀ (S : Lanes) (rc : Lane),
    permuteLanes .perPermutation S rc =
      ((List.range 24).foldl (fun T k => oneRound T (BitVec.ofNat 64 (2 ^ k))) S, 0x0000000001000000) ∧
    permuteLanes .perInit S rc =
      ((List.range 24).foldl (fun T k => oneRound T (lfsrIter k rc)) S, lfsrIter 24 rc) ∧
    ∀ k ≤ 24, (roundLoop k { lanes := S, rc := rc, r := 0 }).r.val = k

/-- R68: the advance rule by bit 63; it is injective, and only 0 goes to 0. -/
def Obligations.LfsrAdvanceIsInjective : Prop :=
  (∀ c : Lane, (c.getLsbD 63 = false → lfsrNext c = c <<< 1) ∧
    (c.getLsbD 63 = true → lfsrNext c = (c <<< 1) ^^^ 0xC000000000000001) ∧ (lfsrNext c = 0 ↔ c = 0)) ∧
  Function.Injective lfsrNext

/-- R70, R71: the constants from the seed are the powers of two up to 2^63, and the three after them. -/
def Obligations.RoundConstantsFromSeed : Prop :=
  (∀ n < 64, lfsrIter n 0x0000000000000001 = BitVec.ofNat 64 (2 ^ n)) ∧
  lfsrIter 64 0x0000000000000001 = 0xC000000000000001 ∧ lfsrIter 65 0x0000000000000001 = 0x4000000000000003 ∧
  lfsrIter 66 0x0000000000000001 = 0x8000000000000006

/-! Padding, codec, sponge -/

/-- R74: the padding and its zero-run length. -/
def Obligations.PadIsMarkersAroundZeros : Prop :=
  ∀ n : Nat,
    pad n = [0x80] ++ List.replicate (136 - (n + 2) % 136) 0x00 ++ [0x01] ∧
    1 ≤ 136 - (n + 2) % 136 ∧ 136 - (n + 2) % 136 ≤ 136 ∧ (136 - (n + 2) % 136 = 136 ↔ n % 136 = 134)

/-- R75: the padding's length, and that a padded message is a positive number of whole blocks. -/
def Obligations.PaddedLengthIsWholeBlocks : Prop :=
  ∀ n : Nat,
    (pad n).length = 2 + (136 - (n + 2) % 136) ∧ 3 ≤ (pad n).length ∧ (pad n).length ≤ 138 ∧
    n + (pad n).length = 136 * ((n + 2) / 136 + 1) ∧ blockCount n = (n + 2) / 136 + 1

/-- R76, R77: padding depends on n mod 136 only; a tail of at most 133 bytes pads to one block with the markers at L
and 135, a tail of 134 or 135 bytes to two, the second being 135 zeros and 0x01. -/
def Obligations.FinalTailIsOneOrTwoBlocks : Prop :=
  (∀ n : Nat, pad n = pad (n % 136)) ∧
  ∀ t : List Byte,
    (t.length ≤ 133 → ∃ b : Block, blocksOf (t ++ pad t.length) = [b] ∧
      b.toList = t ++ [0x80] ++ List.replicate (134 - t.length) 0x00 ++ [0x01]) ∧
    (t.length = 134 → ∃ b c : Block, blocksOf (t ++ pad t.length) = [b, c] ∧ b.toList = t ++ [0x80, 0x00] ∧
      c.toList = List.replicate 135 0x00 ++ [0x01]) ∧
    (t.length = 135 → ∃ b c : Block, blocksOf (t ++ pad t.length) = [b, c] ∧ b.toList = t ++ [0x80] ∧
      c.toList = List.replicate 135 0x00 ++ [0x01])

/-- R38, R88, R89: bit t of byte k is bit 8k+t of the lane, both ways. -/
def Obligations.CodecIsLittleEndian : Prop :=
  ∀ (n : Nat) (b : Vector Byte (8 * n)) (l : Vector Lane n) (j : Fin n) (k : Fin 8) (t : Nat), t < 8 →
    (bytesToLanes b)[j].getLsbD (8 * k.val + t) = b[8 * j.val + k.val].getLsbD t ∧
    (lanesToBytes l)[8 * j.val + k.val].getLsbD t = l[j].getLsbD (8 * k.val + t)

/-- R90: the two directions of the codec undo each other. -/
def Obligations.CodecRoundTrips : Prop :=
  ∀ (n : Nat) (b : Vector Byte (8 * n)) (l : Vector Lane n),
    bytesToLanes (lanesToBytes l) = l ∧ lanesToBytes (bytesToLanes b) = b

/-- R80, R81: the frame is the block and 64 zeros; absorbing XORs the block's 17 little-endian lanes into lanes 0..16,
leaves lanes 17..24 alone, and an all-zero block leaves the State unchanged. -/
def Obligations.AbsorbXorsRateLanesOnly : Prop :=
  ∀ (S : Lanes) (blk : Block),
    (frame blk).toList = blk.toList ++ List.replicate 64 0x00 ∧
    (∀ i : Fin 25, (absorbLanes S blk)[i] = S[i] ^^^ (bytesToLanes (frame blk))[i]) ∧
    (∀ i : Fin 17, (absorbLanes S blk)[i.val] = S[i.val] ^^^ laneOfBytes fun k => blk[8 * i.val + k.val]) ∧
    (∀ i : Fin 25, 17 ≤ i.val → (absorbLanes S blk)[i] = S[i]) ∧
    absorbLanes S (Vector.replicate 136 0x00) = S

/-- R83: byte j of the digest, and that only lanes 0..3 contribute. -/
def Obligations.SqueezeReadsLanesZeroToThree : Prop :=
  ∀ S T : Lanes,
    (∀ j : Fin 32, (squeeze S)[j] = ((S[j.val / 8] >>> (8 * (j.val % 8))) &&& 0xFF).setWidth 8) ∧
    ((∀ i : Fin 4, S[i.val] = T[i.val]) → squeeze S = squeeze T)

/-- R69: both values of RC_SEED_SCOPE give the same digest for every message of at most 133 bytes. -/
def Obligations.ShortMessagesIgnoreSeedScope : Prop :=
  ∀ m : List Byte, m.length ≤ 133 → hashMessage .perInit m = hashMessage .perPermutation m

/-- R87 (R84, R85): ABSORB commands for the full blocks and then FINAL with the tail's length, from S = 0 and RC = 0x01,
leave the State whose squeeze is `hash` of the whole message, under either value of RC_SEED_SCOPE. Between two commands
the states need only agree on S, RC and the parameter. `AbsorbRun` assumes that each ABSORB answers a next state, which
`AbsorbCompletes` states; that FINAL does is concluded here. -/
def Obligations.CommandsComputeHash : Prop :=
  ∀ (s t : State) (ms : List (List Byte)) (tail : List Byte) (p : Pending),
    s.lanes = Vector.replicate 25 0 → s.rc = 0x0000000000000001 → AbsorbRun s ms t →
    tail.length ≤ 135 → t.pend = some p → p.len.toNat = tail.length → BlkHolds tail t →
    ∃ u, exec .final t = .next u ∧ squeeze u.lanes = hashMessage s.rcSeedScope (ms.flatten ++ tail) ∧
      u.status.done = true ∧ u.status.busy = false ∧
      ∀ j : Fin 32, memRead (BitVec.ofNat 9 (0x100 + j.val)) u = .ok (hashMessage s.rcSeedScope (ms.flatten ++ tail))[j]

/-! The host port -/

/-- R92: what a host read of every address returns, STATUS and ERRCAUSE as numbers (R27, R28, R102). -/
def Obligations.HostReadFollowsMap : Prop :=
  ∀ (a : PortAddr) (s : State),
    (a.toNat ≤ 0x087 → ∀ b, s.blk.read a.toNat = some b → memRead a s = .ok b) ∧
    (a.toNat ≤ 0x087 → s.blk.read a.toNat = none → memRead a s = .error (.unwrittenBlk a.toNat)) ∧
    (a = 0x090 → memRead a s = .ok 0x00) ∧
    (a = 0x091 → memRead a s = .ok s.len) ∧
    (a = 0x092 → ∃ b, memRead a s = .ok b ∧
      b.toNat = s.status.busy.toNat + 2 * s.status.done.toNat + 4 * s.status.err.toNat) ∧
    (a = 0x093 → ∃ b, memRead a s = .ok b ∧
      (s.errcause = .clear → b = 0x00) ∧ (s.errcause = .illegalOpcode → b = 0x01) ∧
      (s.errcause = .badLength → b = 0x02) ∧ (s.errcause = .phase → b = 0x03) ∧
      (s.errcause = .overrun → b = 0x04)) ∧
    (∀ j : Fin 200, a.toNat = 0x100 + j.val → s.status.busy = false →
      memRead a s = .ok (((s.lanes[j.val / 8] >>> (8 * (j.val % 8))) &&& 0xFF).setWidth 8)) ∧
    (0x100 ≤ a.toNat → a.toNat ≤ 0x1C7 → s.status.busy = true → ∃ b, memRead a s = .ok b) ∧
    ((0x088 ≤ a.toNat ∧ a.toNat ≤ 0x08F) ∨ (0x094 ≤ a.toNat ∧ a.toNat ≤ 0x0FF) ∨ 0x1C8 ≤ a.toNat →
      memRead a s = .ok 0x00)

/-- R43, R92: a host read of an address that returns a byte answers a next state, in which the host has that byte and
nothing of the engine has changed; a read of a BLK byte without a value is that read's fault. -/
def Obligations.HostReadHasNoSideEffect : Prop :=
  ∀ (a : PortAddr) (x : Nat) (s : State),
    (∀ b, memRead a s = .ok b → ∃ t, hostRead a x s = .next t ∧
      t.lanes = s.lanes ∧ t.rc = s.rc ∧ t.r = s.r ∧ t.blk = s.blk ∧ t.len = s.len ∧ t.status = s.status ∧
      t.errcause = s.errcause ∧ t.pend = s.pend ∧ t.rcSeedScope = s.rcSeedScope ∧ t.turns = s.turns ∧
      t.host.vars.read x = some b ∧ (∀ y, y ≠ x → t.host.vars.read y = s.host.vars.read y) ∧
      t.host.prog = s.host.prog ∧ t.host.pos = s.host.pos + 1) ∧
    ∀ f, memRead a s = .error f → hostRead a x s = .fault f

/-- R93, R37, R121: what a host write of every address does; a write to a BLK byte that the pending ABSORB or FINAL
reads is the model fault BLK_HAZARD. -/
def Obligations.HostWriteFollowsMap : Prop :=
  ∀ (a : PortAddr) (v : Byte) (s : State),
    let hazard := s.status.busy = true ∧ ∃ p, s.pend = some p ∧ (p.op = 0x02 ∨ p.op = 0x03 ∧ a.toNat < p.len.toNat)
    (a.toNat ≤ 0x087 → hazard → memWrite a v s = .fault (.blkHazard a.toNat)) ∧
    (a.toNat ≤ 0x087 → ¬ hazard → memWrite a v s = .next { s with blk := s.blk.write a.toNat v }) ∧
    (a = 0x090 → memWrite a v s = .next (issue v s)) ∧
    (a = 0x091 → memWrite a v s = .next { s with len := v }) ∧
    (0x088 ≤ a.toNat → a ≠ 0x090 → a ≠ 0x091 → memWrite a v s = .next s)

/-- R25, R43: a host write to BLK stores its byte and does nothing else: every other byte, register and flag is as
before. -/
def Obligations.BlkWriteStoresOneByte : Prop :=
  ∀ (a : PortAddr) (v : Byte) (s t : State), a.toNat ≤ 0x087 → memWrite a v s = .next t →
    t.blk.read a.toNat = some v ∧ (∀ x, x ≠ a.toNat → t.blk.read x = s.blk.read x) ∧
    (s.blk.wf → t.blk.wf) ∧ t = { s with blk := t.blk }

/-- R94, R104: the checks of issue in their order, and what passing them all latches. -/
def Obligations.IssueChecksInOrder : Prop :=
  ∀ (v : Byte) (s : State),
    (s.status.busy = true → issue v s = raiseError .overrun s) ∧
    (s.status.busy = false → 0x04 < v.toNat → issue v s = raiseError .illegalOpcode s) ∧
    (s.status.busy = false → v = 0x03 → 135 < s.len.toNat → issue v s = raiseError .badLength s) ∧
    (s.status.busy = false → v = 0x02 ∨ v = 0x03 ∧ s.len.toNat ≤ 135 → s.status.done = true →
      issue v s = raiseError .phase s) ∧
    (s.status.busy = false → v.toNat ≤ 0x04 → (v = 0x03 → s.len.toNat ≤ 135) →
      (v = 0x02 ∨ v = 0x03 → s.status.done = false) →
      issue v s = { s with pend := some { op := v, len := s.len }, status := { s.status with busy := true } })

/-- R103: the first cause is kept, ERR is set, and an error changes nothing else. -/
def Obligations.ErrorKeepsFirstCause : Prop :=
  ∀ (c : ErrCause) (s : State),
    (s.status.err = false →
      raiseError c s = { s with errcause := c, status := { s.status with err := true } }) ∧
    (s.status.err = true → raiseError c s = s)

/-- R52, R54, R94: while idle, a byte is latched exactly if it decodes to a command whose operand LEN is legal and which
the phase allows. -/
def Obligations.IssueAcceptsExactlyLegalCommands : Prop :=
  ∀ (v : Byte) (s : State), s.status.busy = false →
    ((issue v s).status.busy = true ↔
      ∃ i, decode v = .ok i ∧ i.operandOk s.len = true ∧ (i = .absorb ∨ i = .final → s.status.done = false))

/-! The commands -/

/-- R96: NOP, at issue and at completion. -/
def Obligations.NopCompletes : Prop :=
  ∀ s : State,
    decode 0x00 = .ok .nop ∧
    (s.status.busy = true → issue 0x00 s = raiseError .overrun s) ∧
    (s.status.busy = false → issue 0x00 s =
      { s with pend := some { op := 0x00, len := s.len }, status := { s.status with busy := true } }) ∧
    exec .nop s = .next { s with pend := none, status := { s.status with busy := false } }

/-- R97: INIT, at issue and at completion. -/
def Obligations.InitCompletes : Prop :=
  ∀ s : State,
    decode 0x01 = .ok .init ∧
    (s.status.busy = true → issue 0x01 s = raiseError .overrun s) ∧
    (s.status.busy = false → issue 0x01 s =
      { s with pend := some { op := 0x01, len := s.len }, status := { s.status with busy := true } }) ∧
    exec .init s = .next { s with
      lanes := Vector.replicate 25 0, rc := 0x0000000000000001,
      status := { busy := false, done := false, err := false }, errcause := .clear, pend := none }

/-- R98: ABSORB, at issue and, with all 136 BLK bytes written, at completion. That r is 0 after it is the model's
reading of R23, log entry 7. -/
def Obligations.AbsorbCompletes : Prop :=
  ∀ s : State,
    decode 0x02 = .ok .absorb ∧
    (s.status.busy = true → issue 0x02 s = raiseError .overrun s) ∧
    (s.status.busy = false → s.status.done = true → issue 0x02 s = raiseError .phase s) ∧
    (s.status.busy = false → s.status.done = false → issue 0x02 s =
      { s with pend := some { op := 0x02, len := s.len }, status := { s.status with busy := true } }) ∧
    ∀ blk : Block, BlkHolds blk.toList s →
      let q := permuteLanes s.rcSeedScope (absorbLanes s.lanes blk) s.rc
      exec .absorb s = .next { s with
        lanes := q.1, rc := q.2, r := 0, pend := none, status := { s.status with busy := false } }

/-- R99: FINAL, at issue and, with the latched length's BLK bytes written, at completion: the padded blocks in order, each
absorbed and followed by a permutation. That r is 0 after it is the model's reading of R23, log entry 7. -/
def Obligations.FinalCompletes : Prop :=
  ∀ s : State,
    decode 0x03 = .ok .final ∧
    (s.status.busy = true → issue 0x03 s = raiseError .overrun s) ∧
    (s.status.busy = false → 135 < s.len.toNat → issue 0x03 s = raiseError .badLength s) ∧
    (s.status.busy = false → s.len.toNat ≤ 135 → s.status.done = true → issue 0x03 s = raiseError .phase s) ∧
    (s.status.busy = false → s.len.toNat ≤ 135 → s.status.done = false → issue 0x03 s =
      { s with pend := some { op := 0x03, len := s.len }, status := { s.status with busy := true } }) ∧
    ∀ (p : Pending) (bs : List Byte), s.pend = some p → bs.length = p.len.toNat → p.len.toNat ≤ 135 → BlkHolds bs s →
      let q := (blocksOf (bs ++ pad p.len.toNat)).foldl
        (fun (x : Lanes × Lane) (b : Block) => permuteLanes s.rcSeedScope (absorbLanes x.1 b) x.2) (s.lanes, s.rc)
      exec .final s = .next { s with
        lanes := q.1, rc := q.2, r := 0, pend := none, status := { s.status with busy := false, done := true } }

/-- R100: PERMUTE, at issue and at completion. That r is 0 after it is the model's reading of R23, log entry 7. -/
def Obligations.PermuteCompletes : Prop :=
  ∀ s : State,
    decode 0x04 = .ok .permute ∧
    (s.status.busy = true → issue 0x04 s = raiseError .overrun s) ∧
    (s.status.busy = false → issue 0x04 s =
      { s with pend := some { op := 0x04, len := s.len }, status := { s.status with busy := true } }) ∧
    let q := permuteLanes s.rcSeedScope s.lanes s.rc
    exec .permute s = .next { s with
      lanes := q.1, rc := q.2, r := 0, pend := none, status := { s.status with busy := false } }

/-- R105, R117: ABSORB with a BLK byte unwritten, and FINAL with one below its latched length unwritten, stop with the
model fault UNWRITTEN_BLK on such a byte. -/
def Obligations.UnwrittenBlkByteFaults : Prop :=
  ∀ s : State,
    ((∃ j < 136, s.blk.read j = none) →
      ∃ j < 136, s.blk.read j = none ∧ exec .absorb s = .fault (.unwrittenBlk j)) ∧
    ∀ p, s.pend = some p → p.len.toNat ≤ 135 → (∃ j < p.len.toNat, s.blk.read j = none) →
      ∃ j < p.len.toNat, s.blk.read j = none ∧ exec .final s = .fault (.unwrittenBlk j)

/-- The frame of the five completions (R25, R26, R95 to R100): BLK byte by byte, LEN, the parameter, the host and the
turns are as before; BUSY is 0 and nothing is pending; only INIT, ABSORB, FINAL and PERMUTE write S and RC; only INIT
and FINAL write DONE; only INIT writes ERR and ERRCAUSE. That a permutation leaves r at 0 is the model's reading of R23,
log entry 7. -/
def Obligations.CompletionFrame : Prop :=
  ∀ (i : Instr) (s t : State), exec i s = .next t →
    (∀ a, t.blk.read a = s.blk.read a) ∧ t.blk = s.blk ∧ t.len = s.len ∧ t.rcSeedScope = s.rcSeedScope ∧
    t.host = s.host ∧ t.turns = s.turns ∧ t.draws = s.draws ∧ t.pend = none ∧ t.status.busy = false ∧
    (i = .nop → t.lanes = s.lanes ∧ t.rc = s.rc) ∧ (i = .nop ∨ i = .init → t.r = s.r) ∧
    (i ≠ .nop → i ≠ .init → t.r = 0) ∧
    (i ≠ .init → i ≠ .final → t.status.done = s.status.done) ∧
    (i ≠ .init → t.status.err = s.status.err ∧ t.errcause = s.errcause)

/-- R94, R123: an accepted issue of FINAL puts LEN in the latch, and a write of LEN after it changes nothing of FINAL's
completion but the register LEN. -/
def Obligations.LenIsLatchedAtIssue : Prop :=
  ∀ (v : Byte) (s : State),
    (s.status.busy = false → s.len.toNat ≤ 135 → s.status.done = false →
      (issue 0x03 s).pend = some { op := 0x03, len := s.len }) ∧
    memWrite 0x091 v s = .next { s with len := v } ∧
    AgreeButLen (exec .final s) (exec .final { s with len := v })

/-! The machine -/

/-- A step in which the engine has the turn (or no turn is listed) and a command is pending runs the command that the
latched byte decodes to, on the state with the turn taken (R91, R95; that a step without a listed turn completes is the
model's choice, log entry 2). -/
def Obligations.StepRunsPendingCommand : Prop :=
  ∀ (s : State) (p : Pending) (i : Instr), Completes s → s.pend = some p → decode p.op = .ok i →
    step s = exec i { s with turns := s.turns.tail }

/-- R116, R33: reset from any state. -/
def Obligations.ResetSetsEveryRegister : Prop :=
  ∀ (s : State) (ts : List Turn), s.turns = .reset :: ts → ∃ t, step s = .next t ∧
    t.lanes = Vector.replicate 25 0 ∧ t.rc = 0x0000000000000001 ∧ t.r = 0 ∧ (∀ j, t.blk.read j = none) ∧
    t.len = 0x00 ∧ t.status.byte = 0x00 ∧ t.errcause.code = 0x00 ∧ t.pend = none ∧
    (∀ u, exec .init s = .next u →
      t.lanes = u.lanes ∧ t.rc = u.rc ∧ t.status = u.status ∧ t.errcause = u.errcause)

/-- The state right after reset holds the values of R33 and R116, and meets the invariant. -/
def Obligations.ResetStateMeetsInvariant : Prop :=
  EngineInv State.reset ∧ State.reset.lanes = Vector.replicate 25 0 ∧ State.reset.rc = 0x0000000000000001 ∧
    State.reset.r = 0 ∧ (∀ j, State.reset.blk.read j = none) ∧ State.reset.len = 0x00 ∧
    State.reset.status.byte = 0x00 ∧ State.reset.errcause.code = 0x00 ∧ State.reset.pend = none

/-- Every step keeps the invariant: BLK's canonical form and bounds, BUSY with a legal latch, the phase of a pending
ABSORB or FINAL, no half-done permutation, ERR with its cause, RC never 0 and at rest under PER_PERMUTATION. -/
def Obligations.EveryStepKeepsInvariant : Prop :=
  ∀ s t : State, EngineInv s → step s = .next t → EngineInv t

/-- From a state that meets the invariant no completion finds a latch that issue never makes. -/
def Obligations.InvariantExcludesBadLatch : Prop :=
  ∀ s : State, EngineInv s → step s ≠ .refused .badLatch

/-- R95: with BLK written, a pending command completes in the engine's turn: one step, after which BUSY = 0. That it
completes as well when no turn is listed is the model's choice, log entry 2. -/
def Obligations.PendingCommandCompletes : Prop :=
  ∀ s : State, EngineInv s → Completes s → (∀ j < 136, s.blk.read j ≠ none) →
    ∃ t, step s = .next t ∧ t.status.busy = false ∧ t.pend = none

/-- R27: DONE is set only by FINAL's completion, and cleared only by INIT's completion or reset. -/
def Obligations.DoneChangesOnlyByFinalInitReset : Prop :=
  ∀ s t : State, step s = .next t →
    (s.status.done = false → t.status.done = true → Completes s ∧ ∃ p, s.pend = some p ∧ p.op = 0x03) ∧
    (s.status.done = true → t.status.done = false →
      Resets s ∨ Completes s ∧ ∃ p, s.pend = some p ∧ p.op = 0x01)

/-- R103, R108: once ERR is set, ERR and ERRCAUSE stay as they are until INIT's completion or reset. -/
def Obligations.ErrorStaysUntilInitOrReset : Prop :=
  ∀ s t : State, step s = .next t → s.status.err = true →
    (t.status.err = true ∧ t.errcause = s.errcause) ∨
      (t.status.err = false ∧ t.errcause = .clear ∧
        (Resets s ∨ Completes s ∧ ∃ p, s.pend = some p ∧ p.op = 0x01))

/-- R95, R102: ERR is set only by the step of a host write to CMD; no completion, read or other write sets it. -/
def Obligations.ErrorsComeOnlyFromCmdWrites : Prop :=
  ∀ s t : State, step s = .next t → s.status.err = false → t.status.err = true →
    ∃ v, HostDoes (.wr 0x090 v) s ∧ t.errcause ≠ .clear

/-- R18: S is written only by the completions of INIT, ABSORB, FINAL and PERMUTE, and by reset. -/
def Obligations.LanesChangeOnlyByCommands : Prop :=
  ∀ s t : State, step s = .next t → t.lanes ≠ s.lanes →
    Resets s ∨ Completes s ∧ ∃ p, s.pend = some p ∧ (p.op = 0x01 ∨ p.op = 0x02 ∨ p.op = 0x03 ∨ p.op = 0x04)

/-- R126, R100: while DONE = 1 only INIT, PERMUTE or reset changes S; PERMUTE does change the digest's State. -/
def Obligations.WhileDoneOnlyInitPermuteResetChangeLanes : Prop :=
  ∀ s t : State, EngineInv s → step s = .next t → s.status.done = true → t.lanes ≠ s.lanes →
    Resets s ∨ Completes s ∧ ∃ p, s.pend = some p ∧ (p.op = 0x01 ∨ p.op = 0x04)

/-- R25, R117: a byte of BLK changes only by a host write of that byte, or loses its value by reset. -/
def Obligations.BlkChangesOnlyByHostOrReset : Prop :=
  ∀ (s t : State) (j : Nat), step s = .next t → t.blk.read j ≠ s.blk.read j →
    (Resets s ∧ t.blk.read j = none) ∨
      ∃ a v, HostDoes (.wr a v) s ∧ a.toNat = j ∧ a.toNat ≤ 0x087 ∧ t.blk.read j = some v

/-- R26: LEN changes only by a host write to 0x091, or by reset. -/
def Obligations.LenChangesOnlyByHostOrReset : Prop :=
  ∀ s t : State, step s = .next t → t.len ≠ s.len →
    (Resets s ∧ t.len = 0x00) ∨ ∃ v, HostDoes (.wr 0x091 v) s ∧ t.len = v

/-- R56: the four statements of the host, in its turn. R56 says only that a taken `bnz` goes to the label: that of
several equal labels the first is the target is the model's choice, log entry 10. -/
def Obligations.HostStatementsRun : Prop :=
  ∀ (s : State) (ts : List Turn), s.turns = .host :: ts →
    let s1 : State := { s with turns := ts }
    let at' : Nat → State → State := fun k u => { u with host := { u.host with pos := k } }
    (∀ a v, s.host.prog[s.host.pos]? = some (.wr a v) → step s = memWrite a v (at' (s.host.pos + 1) s1)) ∧
    (∀ a x, s.host.prog[s.host.pos]? = some (.rd a x) → step s = hostRead a x s1) ∧
    (∀ l, s.host.prog[s.host.pos]? = some (.label l) → step s = .next (at' (s.host.pos + 1) s1)) ∧
    (∀ x m l b, s.host.prog[s.host.pos]? = some (.bnz x m l) → s.host.vars.read x = some b →
      (b &&& m = 0 → step s = .next (at' (s.host.pos + 1) s1)) ∧
      (b &&& m ≠ 0 → ∀ k, s.host.prog[k]? = some (.label l) → (∀ n < k, s.host.prog[n]? ≠ some (.label l)) →
        step s = .next (at' k s1)))

/-- R39: a bridge's wider write at ENGINE_BASE + o is the byte writes of ascending port addresses from o, and the
little-endian host word of eight bytes is the lane the codec forms from them. -/
def Obligations.BridgeSplitsAscending : Prop :=
  (∀ (base o : Nat) (bs : List Byte), o + bs.length ≤ 512 → bridgeWrite base (base + o) bs = hostLdblk o bs) ∧
  ∀ b : Fin 8 → Byte, hostWord [b 0, b 1, b 2, b 3, b 4, b 5, b 6, b 7] = (laneOfBytes b).toNat
end

