-- ==== Sys2Proof/Laws/Algorithm.lean ====
section
/-! SUPPORT. The round loop, the codec, the frame and the blocks of a sequence: one spec lemma per function. -/
namespace Sys2Proof.Machine

/-- A lane by its list index is the lane. -/
theorem lanes_getD (S : Lanes) (i : Fin 25) : S.toList.getD i.val 0 = S[i] := by
  simp

/-- RC after n passes of the round loop. -/
theorem roundLoop_rc (n : Nat) (p : RoundState) : (roundLoop n p).rc = lfsrIter n p.rc := by
  induction n with
  | zero => rfl
  | succ n ih => simp [roundLoop, loopPass, lfsrIter, ih]

/-- The lanes after n passes: round k consumes the k-th value from RC. -/
theorem roundLoop_lanes (n : Nat) (p : RoundState) :
    (roundLoop n p).lanes = (List.range n).foldl (fun T k => oneRound T (lfsrIter k p.rc)) p.lanes := by
  induction n with
  | zero => rfl
  | succ n ih => simp [roundLoop, loopPass, List.range_succ, ih, roundLoop_rc]

/-- A run of rounds depends on the constants it consumes only. -/
theorem rounds_congr (f g : Nat → Lane) (l : List Nat) (h : ∀ k ∈ l, f k = g k) (S : Lanes) :
    l.foldl (fun T k => oneRound T (f k)) S = l.foldl (fun T k => oneRound T (g k)) S := by
  induction l generalizing S with
  | nil => rfl
  | cons k l ih =>
    rw [List.foldl_cons, List.foldl_cons, h k (by simp)]
    exact ih (fun k hk => h k (by simp [hk])) _

/-- The value of a lane in base 256, least significant byte first. -/
theorem laneOfBytes_toNat (b : Fin 8 → Byte) :
    (laneOfBytes b).toNat = (b 0).toNat + 256 * ((b 1).toNat + 256 * ((b 2).toNat + 256 * ((b 3).toNat +
      256 * ((b 4).toNat + 256 * ((b 5).toNat + 256 * ((b 6).toNat + 256 * (b 7).toNat)))))) := by
  simp only [laneOfBytes, BitVec.toNat_add, BitVec.toNat_shiftLeft, BitVec.toNat_setWidth, Nat.shiftLeft_eq]
  have h := fun i => (b i).isLt
  have h0 := h 0; have h1 := h 1; have h2 := h 2; have h3 := h 3
  have h4 := h 4; have h5 := h 5; have h6 := h 6; have h7 := h 7
  omega

/-- The value of byte k of a lane. -/
theorem byteOfLane_toNat (v : Lane) (k : Nat) : (byteOfLane v k).toNat = v.toNat / 2 ^ (8 * k) % 256 := by
  have h : ∀ n : Nat, n &&& 255 = n % 256 := fun n => Nat.and_two_pow_sub_one_eq_mod n 8
  simp [byteOfLane, Nat.shiftRight_eq_div_pow, h]

/-- Bit t of byte k is bit 8k + t of the lane. -/
theorem byteOfLane_bit (v : Lane) (k t : Nat) (ht : t < 8) :
    (byteOfLane v k).getLsbD t = v.getLsbD (8 * k + t) := by
  have h : ∀ t < 8, (0xFF : Lane).getLsbD t = true := by decide
  unfold byteOfLane
  rw [BitVec.getLsbD_setWidth, BitVec.getLsbD_and, h t ht, BitVec.getLsbD_ushiftRight]
  simp [ht]

/-- The frame's first 136 bytes are the block's. -/
theorem frame_low (blk : Block) (i : Nat) (h : i < 136) : (frame blk)[i] = blk[i] := by
  unfold frame; exact Vector.getElem_append_left h

/-- The frame's last 64 bytes are zero. -/
theorem frame_high (blk : Block) (i : Nat) (h : i < 8 * 25) (h2 : 136 ≤ i) : (frame blk)[i] = 0 := by
  unfold frame
  exact (Vector.getElem_append_right (by omega) h2).trans (Vector.getElem_replicate _)

/-- A byte of the digest is a byte of its lane. -/
theorem squeeze_byte (S : Lanes) (j : Fin 32) : (squeeze S)[j] = byteOfLane S[j.val / 8] (j.val % 8) := by
  simp only [squeeze, lanesToBytes, Fin.getElem_fin, Vector.getElem_ofFn]

/-- A byte of the state window is a byte of its lane. -/
theorem windowByte_eq (S : Lanes) (j : Fin 200) : windowByte S j = byteOfLane S[j.val / 8] (j.val % 8) := by
  simp only [windowByte, lanesToBytes, Vector.getElem_ofFn]

/-- The block a block's own bytes give. -/
theorem blockAt_toList (blk : Block) : blockAt blk.toList 0 = blk := by
  apply Vector.ext
  intro i hi
  simp [blockAt]

/-- A whole block inside a sequence is that slice of it. -/
theorem blockAt_slice (P : List Byte) (b : Nat) (h : 136 * b + 136 ≤ P.length) :
    (blockAt P b).toList = (P.drop (136 * b)).take 136 := by
  apply List.ext_getElem
  · simp; omega
  · intro i h1 h2
    have : i < 136 := by simpa using h1
    simp [blockAt, show 136 * b + i < P.length by omega]

/-- The first block of a sequence, and the blocks of the rest. -/
theorem blocksOf_append (a b : List Byte) (h : a.length = 136) :
    blocksOf (a ++ b) = blockAt a 0 :: blocksOf b := by
  unfold blocksOf
  have hn : (a ++ b).length / 136 = b.length / 136 + 1 := by rw [List.length_append]; omega
  rw [hn, List.range_succ_eq_map, List.map_cons, List.map_map]
  refine congrArg₂ List.cons ?_ ?_
  · unfold blockAt; congr 1; funext j
    rw [List.getD_eq_getElem?_getD, List.getD_eq_getElem?_getD, List.getElem?_append_left (by omega)]
  · apply List.map_congr_left
    intro k _
    unfold blockAt; simp only [Function.comp]; congr 1; funext j
    rw [List.getD_eq_getElem?_getD, List.getD_eq_getElem?_getD, List.getElem?_append_right (by omega)]
    congr 2; omega

end Sys2Proof.Machine
end

