-- ==== Sys2Proof/Laws/Memory.lean ====
section
/-! SUPPORT. The laws of a memory: read after write, the canonical form, and what reading a range answers. -/
namespace Sys2Proof.Machine

theorem Memory.read_write_same (m : Memory) (a : Nat) (v : Byte) : (m.write a v).read a = some v := by
  induction m with
  | nil => simp [Memory.write, Memory.read]
  | cons c m ih =>
    obtain ⟨b, w⟩ := c
    simp only [Memory.write]
    split
    · simp [Memory.read]
    · split
      · simp [Memory.read]
      · simp [Memory.read, *]

theorem Memory.read_write_other (m : Memory) (a x : Nat) (v : Byte) (hx : x ≠ a) :
    (m.write a v).read x = m.read x := by
  induction m with
  | nil => simp [Memory.write, Memory.read, hx]
  | cons c m ih =>
    obtain ⟨b, w⟩ := c
    simp only [Memory.write]
    split
    · simp [Memory.read, hx]
    · split
      · next h => subst h; simp [Memory.read, hx]
      · simp [Memory.read, ih]

/-- A write lists the written address and nothing new beside it. -/
theorem Memory.mem_write (m : Memory) (a : Nat) (v : Byte) (c : Host.Cell) (h : c ∈ m.write a v) :
    c = (a, v) ∨ c ∈ m := by
  induction m with
  | nil => simpa [Memory.write] using h
  | cons d m ih =>
    obtain ⟨b, w⟩ := d
    simp only [Memory.write] at h
    split at h
    · simpa using h
    · split at h <;> simp only [List.mem_cons] at h ⊢
      · tauto
      · rcases h with h | h
        · exact .inr (.inl h)
        · rcases ih h with h | h <;> tauto

/-- Every write keeps the canonical form. -/
theorem Memory.wf_write (m : Memory) (a : Nat) (v : Byte) (h : m.wf) : (m.write a v).wf := by
  induction m with
  | nil => simp [Memory.write, Memory.wf]
  | cons d m ih =>
    obtain ⟨b, w⟩ := d
    simp only [Memory.wf, List.pairwise_cons] at h
    simp only [Memory.write]
    split
    · next hab =>
      simp only [Memory.wf, List.pairwise_cons, List.mem_cons]
      exact ⟨fun c hc => by rcases hc with rfl | hc <;> (simp_all; try exact hab.trans (h.1 _ _ hc)), h⟩
    · split
      · next hab => subst hab; simpa [Memory.wf] using h
      · next hlt hne =>
        simp only [Memory.wf, List.pairwise_cons]
        refine ⟨fun c hc => ?_, ih h.2⟩
        rcases Memory.mem_write m a v c hc with rfl | hc
        · show b < a
          omega
        · exact h.1 c hc

theorem Memory.bound_write (m : Memory) (n a : Nat) (v : Byte) (h : ∀ c ∈ m, c.1 < n) (ha : a < n) :
    ∀ c ∈ m.write a v, c.1 < n := by
  intro c hc
  rcases Memory.mem_write m a v c hc with rfl | hc
  · exact ha
  · exact h c hc

/-- A range whose bytes are all written reads as those bytes. -/
theorem Memory.readRange_ok (m : Memory) (bs : List Byte) (a : Nat)
    (h : ∀ (j : Nat) (hj : j < bs.length), m.read (a + j) = some bs[j]) : m.readRange a bs.length = .ok bs := by
  induction bs generalizing a with
  | nil => rfl
  | cons b bs ih =>
    have h0 := h 0 (by simp)
    have hr := ih (a + 1) fun j hj => by
      have := h (j + 1) (by simpa using hj)
      simpa [Nat.add_assoc, Nat.add_comm 1 j] using this
    simp only [Nat.add_zero, List.getElem_cons_zero] at h0
    simp [Memory.readRange, h0, hr]

/-- What a range that answers bytes says of the memory. -/
theorem Memory.readRange_spec (m : Memory) (n a : Nat) (bs : List Byte) (h : m.readRange a n = .ok bs) :
    bs.length = n ∧ ∀ (j : Nat) (hj : j < bs.length), m.read (a + j) = some bs[j] := by
  induction n generalizing a bs with
  | zero => simp only [Memory.readRange, Except.ok.injEq] at h; subst h; simp
  | succ n ih =>
    simp only [Memory.readRange] at h
    split at h
    · cases h
    · next b hb =>
      split at h
      · cases h
      · next bs' hbs =>
        cases h
        obtain ⟨hl, hr⟩ := ih (a + 1) bs' hbs
        refine ⟨by simp [hl], fun j hj => ?_⟩
        cases j with
        | zero => simpa using hb
        | succ j => simpa [Nat.add_assoc, Nat.add_comm 1 j] using hr j (by simpa using hj)

/-- A range faults exactly at its lowest byte without a value. -/
theorem Memory.readRange_fault (m : Memory) (n a j : Nat) (hj : j < n) (hn : m.read (a + j) = none)
    (hb : ∀ k < j, m.read (a + k) ≠ none) : m.readRange a n = .error (.unwrittenBlk (a + j)) := by
  induction n generalizing a j with
  | zero => omega
  | succ n ih =>
    simp only [Memory.readRange]
    cases j with
    | zero => simp_all
    | succ j =>
      have h0 := hb 0 (by omega)
      rw [Nat.add_zero] at h0
      obtain ⟨b, hb0⟩ := Option.ne_none_iff_exists'.mp h0
      have := ih (a + 1) j (by omega) (by simpa [Nat.add_assoc, Nat.add_comm 1 j] using hn) fun k hk => by
        have := hb (k + 1) (by omega)
        simpa [Nat.add_assoc, Nat.add_comm 1 k] using this
      simp [hb0, this, Nat.add_assoc, Nat.add_comm 1 j]

/-- A range that stops stops on one of its bytes that holds no value. -/
theorem Memory.readRange_error (m : Memory) (n a : Nat) (f : Fault) (h : m.readRange a n = .error f) :
    ∃ j < n, f = .unwrittenBlk (a + j) ∧ m.read (a + j) = none := by
  induction n generalizing a with
  | zero => cases h
  | succ n ih =>
    simp only [Memory.readRange] at h
    split at h
    · next hn => cases h; exact ⟨0, by omega, rfl, hn⟩
    · split at h
      · next hf =>
        cases h
        obtain ⟨j, hj, hf', hn⟩ := ih (a + 1) hf
        exact ⟨j + 1, by omega, by rw [hf']; congr 1; omega, by rw [← hn]; congr 1; omega⟩
      · cases h

end Sys2Proof.Machine
end

