-- ==== Sys2Proof/Laws/State.lean ====
section
/-! SUPPORT. What every named update of State does to every field, one lemma each, so that no proof unfolds an update. -/
namespace Sys2Proof.Machine

@[simp] theorem setBusy_lanes (b : Bool) (s : State) : (State.setBusy b s).lanes = s.lanes := rfl
@[simp] theorem setBusy_rc (b : Bool) (s : State) : (State.setBusy b s).rc = s.rc := rfl
@[simp] theorem setBusy_r (b : Bool) (s : State) : (State.setBusy b s).r = s.r := rfl
@[simp] theorem setBusy_blk (b : Bool) (s : State) : (State.setBusy b s).blk = s.blk := rfl
@[simp] theorem setBusy_len (b : Bool) (s : State) : (State.setBusy b s).len = s.len := rfl
@[simp] theorem setBusy_status_busy (b : Bool) (s : State) : (State.setBusy b s).status.busy = b := rfl
@[simp] theorem setBusy_status_done (b : Bool) (s : State) : (State.setBusy b s).status.done = s.status.done := rfl
@[simp] theorem setBusy_status_err (b : Bool) (s : State) : (State.setBusy b s).status.err = s.status.err := rfl
@[simp] theorem setBusy_errcause (b : Bool) (s : State) : (State.setBusy b s).errcause = s.errcause := rfl
@[simp] theorem setBusy_pend (b : Bool) (s : State) : (State.setBusy b s).pend = s.pend := rfl
@[simp] theorem setBusy_rcSeedScope (b : Bool) (s : State) : (State.setBusy b s).rcSeedScope = s.rcSeedScope := rfl
@[simp] theorem setBusy_host (b : Bool) (s : State) : (State.setBusy b s).host = s.host := rfl
@[simp] theorem setBusy_turns (b : Bool) (s : State) : (State.setBusy b s).turns = s.turns := rfl
@[simp] theorem setBusy_draws (b : Bool) (s : State) : (State.setBusy b s).draws = s.draws := rfl

@[simp] theorem setDone_lanes (b : Bool) (s : State) : (State.setDone b s).lanes = s.lanes := rfl
@[simp] theorem setDone_rc (b : Bool) (s : State) : (State.setDone b s).rc = s.rc := rfl
@[simp] theorem setDone_r (b : Bool) (s : State) : (State.setDone b s).r = s.r := rfl
@[simp] theorem setDone_blk (b : Bool) (s : State) : (State.setDone b s).blk = s.blk := rfl
@[simp] theorem setDone_len (b : Bool) (s : State) : (State.setDone b s).len = s.len := rfl
@[simp] theorem setDone_status_busy (b : Bool) (s : State) : (State.setDone b s).status.busy = s.status.busy := rfl
@[simp] theorem setDone_status_done (b : Bool) (s : State) : (State.setDone b s).status.done = b := rfl
@[simp] theorem setDone_status_err (b : Bool) (s : State) : (State.setDone b s).status.err = s.status.err := rfl
@[simp] theorem setDone_errcause (b : Bool) (s : State) : (State.setDone b s).errcause = s.errcause := rfl
@[simp] theorem setDone_pend (b : Bool) (s : State) : (State.setDone b s).pend = s.pend := rfl
@[simp] theorem setDone_rcSeedScope (b : Bool) (s : State) : (State.setDone b s).rcSeedScope = s.rcSeedScope := rfl
@[simp] theorem setDone_host (b : Bool) (s : State) : (State.setDone b s).host = s.host := rfl
@[simp] theorem setDone_turns (b : Bool) (s : State) : (State.setDone b s).turns = s.turns := rfl
@[simp] theorem setDone_draws (b : Bool) (s : State) : (State.setDone b s).draws = s.draws := rfl

@[simp] theorem setErr_lanes (b : Bool) (s : State) : (State.setErr b s).lanes = s.lanes := rfl
@[simp] theorem setErr_rc (b : Bool) (s : State) : (State.setErr b s).rc = s.rc := rfl
@[simp] theorem setErr_r (b : Bool) (s : State) : (State.setErr b s).r = s.r := rfl
@[simp] theorem setErr_blk (b : Bool) (s : State) : (State.setErr b s).blk = s.blk := rfl
@[simp] theorem setErr_len (b : Bool) (s : State) : (State.setErr b s).len = s.len := rfl
@[simp] theorem setErr_status_busy (b : Bool) (s : State) : (State.setErr b s).status.busy = s.status.busy := rfl
@[simp] theorem setErr_status_done (b : Bool) (s : State) : (State.setErr b s).status.done = s.status.done := rfl
@[simp] theorem setErr_status_err (b : Bool) (s : State) : (State.setErr b s).status.err = b := rfl
@[simp] theorem setErr_errcause (b : Bool) (s : State) : (State.setErr b s).errcause = s.errcause := rfl
@[simp] theorem setErr_pend (b : Bool) (s : State) : (State.setErr b s).pend = s.pend := rfl
@[simp] theorem setErr_rcSeedScope (b : Bool) (s : State) : (State.setErr b s).rcSeedScope = s.rcSeedScope := rfl
@[simp] theorem setErr_host (b : Bool) (s : State) : (State.setErr b s).host = s.host := rfl
@[simp] theorem setErr_turns (b : Bool) (s : State) : (State.setErr b s).turns = s.turns := rfl
@[simp] theorem setErr_draws (b : Bool) (s : State) : (State.setErr b s).draws = s.draws := rfl

@[simp] theorem setCause_lanes (c : ErrCause) (s : State) : (State.setCause c s).lanes = s.lanes := rfl
@[simp] theorem setCause_rc (c : ErrCause) (s : State) : (State.setCause c s).rc = s.rc := rfl
@[simp] theorem setCause_r (c : ErrCause) (s : State) : (State.setCause c s).r = s.r := rfl
@[simp] theorem setCause_blk (c : ErrCause) (s : State) : (State.setCause c s).blk = s.blk := rfl
@[simp] theorem setCause_len (c : ErrCause) (s : State) : (State.setCause c s).len = s.len := rfl
@[simp] theorem setCause_status (c : ErrCause) (s : State) : (State.setCause c s).status = s.status := rfl
@[simp] theorem setCause_errcause (c : ErrCause) (s : State) : (State.setCause c s).errcause = c := rfl
@[simp] theorem setCause_pend (c : ErrCause) (s : State) : (State.setCause c s).pend = s.pend := rfl
@[simp] theorem setCause_rcSeedScope (c : ErrCause) (s : State) :
    (State.setCause c s).rcSeedScope = s.rcSeedScope := rfl
@[simp] theorem setCause_host (c : ErrCause) (s : State) : (State.setCause c s).host = s.host := rfl
@[simp] theorem setCause_turns (c : ErrCause) (s : State) : (State.setCause c s).turns = s.turns := rfl
@[simp] theorem setCause_draws (c : ErrCause) (s : State) : (State.setCause c s).draws = s.draws := rfl

@[simp] theorem latchCommand_lanes (v : Byte) (s : State) : (latchCommand v s).lanes = s.lanes := rfl
@[simp] theorem latchCommand_rc (v : Byte) (s : State) : (latchCommand v s).rc = s.rc := rfl
@[simp] theorem latchCommand_r (v : Byte) (s : State) : (latchCommand v s).r = s.r := rfl
@[simp] theorem latchCommand_blk (v : Byte) (s : State) : (latchCommand v s).blk = s.blk := rfl
@[simp] theorem latchCommand_len (v : Byte) (s : State) : (latchCommand v s).len = s.len := rfl
@[simp] theorem latchCommand_status_busy (v : Byte) (s : State) : (latchCommand v s).status.busy = true := rfl
@[simp] theorem latchCommand_status_done (v : Byte) (s : State) :
    (latchCommand v s).status.done = s.status.done := rfl
@[simp] theorem latchCommand_status_err (v : Byte) (s : State) : (latchCommand v s).status.err = s.status.err := rfl
@[simp] theorem latchCommand_errcause (v : Byte) (s : State) : (latchCommand v s).errcause = s.errcause := rfl
@[simp] theorem latchCommand_pend (v : Byte) (s : State) :
    (latchCommand v s).pend = some { op := v, len := s.len } := rfl
@[simp] theorem latchCommand_rcSeedScope (v : Byte) (s : State) :
    (latchCommand v s).rcSeedScope = s.rcSeedScope := rfl
@[simp] theorem latchCommand_host (v : Byte) (s : State) : (latchCommand v s).host = s.host := rfl
@[simp] theorem latchCommand_turns (v : Byte) (s : State) : (latchCommand v s).turns = s.turns := rfl
@[simp] theorem latchCommand_draws (v : Byte) (s : State) : (latchCommand v s).draws = s.draws := rfl

@[simp] theorem endCommand_lanes (s : State) : (endCommand s).lanes = s.lanes := rfl
@[simp] theorem endCommand_rc (s : State) : (endCommand s).rc = s.rc := rfl
@[simp] theorem endCommand_r (s : State) : (endCommand s).r = s.r := rfl
@[simp] theorem endCommand_blk (s : State) : (endCommand s).blk = s.blk := rfl
@[simp] theorem endCommand_len (s : State) : (endCommand s).len = s.len := rfl
@[simp] theorem endCommand_status_busy (s : State) : (endCommand s).status.busy = false := rfl
@[simp] theorem endCommand_status_done (s : State) : (endCommand s).status.done = s.status.done := rfl
@[simp] theorem endCommand_status_err (s : State) : (endCommand s).status.err = s.status.err := rfl
@[simp] theorem endCommand_errcause (s : State) : (endCommand s).errcause = s.errcause := rfl
@[simp] theorem endCommand_pend (s : State) : (endCommand s).pend = none := rfl
@[simp] theorem endCommand_rcSeedScope (s : State) : (endCommand s).rcSeedScope = s.rcSeedScope := rfl
@[simp] theorem endCommand_host (s : State) : (endCommand s).host = s.host := rfl
@[simp] theorem endCommand_turns (s : State) : (endCommand s).turns = s.turns := rfl
@[simp] theorem endCommand_draws (s : State) : (endCommand s).draws = s.draws := rfl

@[simp] theorem setSponge_lanes (q : Lanes × Lane) (s : State) : (setSponge q s).lanes = q.1 := rfl
@[simp] theorem setSponge_rc (q : Lanes × Lane) (s : State) : (setSponge q s).rc = q.2 := rfl
@[simp] theorem setSponge_r (q : Lanes × Lane) (s : State) : (setSponge q s).r = 0 := rfl
@[simp] theorem setSponge_blk (q : Lanes × Lane) (s : State) : (setSponge q s).blk = s.blk := rfl
@[simp] theorem setSponge_len (q : Lanes × Lane) (s : State) : (setSponge q s).len = s.len := rfl
@[simp] theorem setSponge_status (q : Lanes × Lane) (s : State) : (setSponge q s).status = s.status := rfl
@[simp] theorem setSponge_errcause (q : Lanes × Lane) (s : State) : (setSponge q s).errcause = s.errcause := rfl
@[simp] theorem setSponge_pend (q : Lanes × Lane) (s : State) : (setSponge q s).pend = s.pend := rfl
@[simp] theorem setSponge_rcSeedScope (q : Lanes × Lane) (s : State) :
    (setSponge q s).rcSeedScope = s.rcSeedScope := rfl
@[simp] theorem setSponge_host (q : Lanes × Lane) (s : State) : (setSponge q s).host = s.host := rfl
@[simp] theorem setSponge_turns (q : Lanes × Lane) (s : State) : (setSponge q s).turns = s.turns := rfl
@[simp] theorem setSponge_draws (q : Lanes × Lane) (s : State) : (setSponge q s).draws = s.draws := rfl

@[simp] theorem writeBlk_lanes (j : Nat) (v : Byte) (s : State) : (writeBlk j v s).lanes = s.lanes := rfl
@[simp] theorem writeBlk_rc (j : Nat) (v : Byte) (s : State) : (writeBlk j v s).rc = s.rc := rfl
@[simp] theorem writeBlk_r (j : Nat) (v : Byte) (s : State) : (writeBlk j v s).r = s.r := rfl
@[simp] theorem writeBlk_blk (j : Nat) (v : Byte) (s : State) : (writeBlk j v s).blk = s.blk.write j v := rfl
@[simp] theorem writeBlk_len (j : Nat) (v : Byte) (s : State) : (writeBlk j v s).len = s.len := rfl
@[simp] theorem writeBlk_status (j : Nat) (v : Byte) (s : State) : (writeBlk j v s).status = s.status := rfl
@[simp] theorem writeBlk_errcause (j : Nat) (v : Byte) (s : State) : (writeBlk j v s).errcause = s.errcause := rfl
@[simp] theorem writeBlk_pend (j : Nat) (v : Byte) (s : State) : (writeBlk j v s).pend = s.pend := rfl
@[simp] theorem writeBlk_rcSeedScope (j : Nat) (v : Byte) (s : State) :
    (writeBlk j v s).rcSeedScope = s.rcSeedScope := rfl
@[simp] theorem writeBlk_host (j : Nat) (v : Byte) (s : State) : (writeBlk j v s).host = s.host := rfl
@[simp] theorem writeBlk_turns (j : Nat) (v : Byte) (s : State) : (writeBlk j v s).turns = s.turns := rfl
@[simp] theorem writeBlk_draws (j : Nat) (v : Byte) (s : State) : (writeBlk j v s).draws = s.draws := rfl

@[simp] theorem setLen_lanes (v : Byte) (s : State) : (setLen v s).lanes = s.lanes := rfl
@[simp] theorem setLen_rc (v : Byte) (s : State) : (setLen v s).rc = s.rc := rfl
@[simp] theorem setLen_r (v : Byte) (s : State) : (setLen v s).r = s.r := rfl
@[simp] theorem setLen_blk (v : Byte) (s : State) : (setLen v s).blk = s.blk := rfl
@[simp] theorem setLen_len (v : Byte) (s : State) : (setLen v s).len = v := rfl
@[simp] theorem setLen_status (v : Byte) (s : State) : (setLen v s).status = s.status := rfl
@[simp] theorem setLen_errcause (v : Byte) (s : State) : (setLen v s).errcause = s.errcause := rfl
@[simp] theorem setLen_pend (v : Byte) (s : State) : (setLen v s).pend = s.pend := rfl
@[simp] theorem setLen_rcSeedScope (v : Byte) (s : State) : (setLen v s).rcSeedScope = s.rcSeedScope := rfl
@[simp] theorem setLen_host (v : Byte) (s : State) : (setLen v s).host = s.host := rfl
@[simp] theorem setLen_turns (v : Byte) (s : State) : (setLen v s).turns = s.turns := rfl
@[simp] theorem setLen_draws (v : Byte) (s : State) : (setLen v s).draws = s.draws := rfl

@[simp] theorem setTurns_lanes (ts : List Turn) (s : State) : (setTurns ts s).lanes = s.lanes := rfl
@[simp] theorem setTurns_rc (ts : List Turn) (s : State) : (setTurns ts s).rc = s.rc := rfl
@[simp] theorem setTurns_r (ts : List Turn) (s : State) : (setTurns ts s).r = s.r := rfl
@[simp] theorem setTurns_blk (ts : List Turn) (s : State) : (setTurns ts s).blk = s.blk := rfl
@[simp] theorem setTurns_len (ts : List Turn) (s : State) : (setTurns ts s).len = s.len := rfl
@[simp] theorem setTurns_status (ts : List Turn) (s : State) : (setTurns ts s).status = s.status := rfl
@[simp] theorem setTurns_errcause (ts : List Turn) (s : State) : (setTurns ts s).errcause = s.errcause := rfl
@[simp] theorem setTurns_pend (ts : List Turn) (s : State) : (setTurns ts s).pend = s.pend := rfl
@[simp] theorem setTurns_rcSeedScope (ts : List Turn) (s : State) :
    (setTurns ts s).rcSeedScope = s.rcSeedScope := rfl
@[simp] theorem setTurns_host (ts : List Turn) (s : State) : (setTurns ts s).host = s.host := rfl
@[simp] theorem setTurns_turns (ts : List Turn) (s : State) : (setTurns ts s).turns = ts := rfl
@[simp] theorem setTurns_draws (ts : List Turn) (s : State) : (setTurns ts s).draws = s.draws := rfl

@[simp] theorem clearErrors_lanes (s : State) : (clearErrors s).lanes = s.lanes := rfl
@[simp] theorem clearErrors_rc (s : State) : (clearErrors s).rc = s.rc := rfl
@[simp] theorem clearErrors_r (s : State) : (clearErrors s).r = s.r := rfl
@[simp] theorem clearErrors_blk (s : State) : (clearErrors s).blk = s.blk := rfl
@[simp] theorem clearErrors_len (s : State) : (clearErrors s).len = s.len := rfl
@[simp] theorem clearErrors_status_busy (s : State) : (clearErrors s).status.busy = s.status.busy := rfl
@[simp] theorem clearErrors_status_done (s : State) : (clearErrors s).status.done = s.status.done := rfl
@[simp] theorem clearErrors_status_err (s : State) : (clearErrors s).status.err = false := rfl
@[simp] theorem clearErrors_errcause (s : State) : (clearErrors s).errcause = .clear := rfl
@[simp] theorem clearErrors_pend (s : State) : (clearErrors s).pend = s.pend := rfl
@[simp] theorem clearErrors_rcSeedScope (s : State) : (clearErrors s).rcSeedScope = s.rcSeedScope := rfl
@[simp] theorem clearErrors_host (s : State) : (clearErrors s).host = s.host := rfl
@[simp] theorem clearErrors_turns (s : State) : (clearErrors s).turns = s.turns := rfl
@[simp] theorem clearErrors_draws (s : State) : (clearErrors s).draws = s.draws := rfl

@[simp] theorem initEffect_lanes (s : State) : (initEffect s).lanes = zeroLanes := rfl
@[simp] theorem initEffect_rc (s : State) : (initEffect s).rc = rcSeed := rfl
@[simp] theorem initEffect_r (s : State) : (initEffect s).r = s.r := rfl
@[simp] theorem initEffect_blk (s : State) : (initEffect s).blk = s.blk := rfl
@[simp] theorem initEffect_len (s : State) : (initEffect s).len = s.len := rfl
@[simp] theorem initEffect_status_busy (s : State) : (initEffect s).status.busy = s.status.busy := rfl
@[simp] theorem initEffect_status_done (s : State) : (initEffect s).status.done = false := rfl
@[simp] theorem initEffect_status_err (s : State) : (initEffect s).status.err = false := rfl
@[simp] theorem initEffect_errcause (s : State) : (initEffect s).errcause = .clear := rfl
@[simp] theorem initEffect_pend (s : State) : (initEffect s).pend = s.pend := rfl
@[simp] theorem initEffect_rcSeedScope (s : State) : (initEffect s).rcSeedScope = s.rcSeedScope := rfl
@[simp] theorem initEffect_host (s : State) : (initEffect s).host = s.host := rfl
@[simp] theorem initEffect_turns (s : State) : (initEffect s).turns = s.turns := rfl
@[simp] theorem initEffect_draws (s : State) : (initEffect s).draws = s.draws := rfl

@[simp] theorem finalEffect_lanes (bs : List Byte) (s : State) :
    (finalEffect bs s).lanes = (absorbBlocks s.rcSeedScope (s.lanes, s.rc) (blocksOf (bs ++ pad bs.length))).1 := rfl
@[simp] theorem finalEffect_rc (bs : List Byte) (s : State) :
    (finalEffect bs s).rc = (absorbBlocks s.rcSeedScope (s.lanes, s.rc) (blocksOf (bs ++ pad bs.length))).2 := rfl
@[simp] theorem finalEffect_r (bs : List Byte) (s : State) : (finalEffect bs s).r = 0 := rfl
@[simp] theorem finalEffect_blk (bs : List Byte) (s : State) : (finalEffect bs s).blk = s.blk := rfl
@[simp] theorem finalEffect_len (bs : List Byte) (s : State) : (finalEffect bs s).len = s.len := rfl
@[simp] theorem finalEffect_status_busy (bs : List Byte) (s : State) :
    (finalEffect bs s).status.busy = s.status.busy := rfl
@[simp] theorem finalEffect_status_done (bs : List Byte) (s : State) : (finalEffect bs s).status.done = true := rfl
@[simp] theorem finalEffect_status_err (bs : List Byte) (s : State) :
    (finalEffect bs s).status.err = s.status.err := rfl
@[simp] theorem finalEffect_errcause (bs : List Byte) (s : State) : (finalEffect bs s).errcause = s.errcause := rfl
@[simp] theorem finalEffect_pend (bs : List Byte) (s : State) : (finalEffect bs s).pend = s.pend := rfl
@[simp] theorem finalEffect_rcSeedScope (bs : List Byte) (s : State) :
    (finalEffect bs s).rcSeedScope = s.rcSeedScope := rfl
@[simp] theorem finalEffect_host (bs : List Byte) (s : State) : (finalEffect bs s).host = s.host := rfl
@[simp] theorem finalEffect_turns (bs : List Byte) (s : State) : (finalEffect bs s).turns = s.turns := rfl
@[simp] theorem finalEffect_draws (bs : List Byte) (s : State) : (finalEffect bs s).draws = s.draws := rfl

@[simp] theorem hostGoto_lanes (k : Nat) (s : State) : (hostGoto k s).lanes = s.lanes := rfl
@[simp] theorem hostGoto_rc (k : Nat) (s : State) : (hostGoto k s).rc = s.rc := rfl
@[simp] theorem hostGoto_r (k : Nat) (s : State) : (hostGoto k s).r = s.r := rfl
@[simp] theorem hostGoto_blk (k : Nat) (s : State) : (hostGoto k s).blk = s.blk := rfl
@[simp] theorem hostGoto_len (k : Nat) (s : State) : (hostGoto k s).len = s.len := rfl
@[simp] theorem hostGoto_status (k : Nat) (s : State) : (hostGoto k s).status = s.status := rfl
@[simp] theorem hostGoto_errcause (k : Nat) (s : State) : (hostGoto k s).errcause = s.errcause := rfl
@[simp] theorem hostGoto_pend (k : Nat) (s : State) : (hostGoto k s).pend = s.pend := rfl
@[simp] theorem hostGoto_rcSeedScope (k : Nat) (s : State) : (hostGoto k s).rcSeedScope = s.rcSeedScope := rfl
@[simp] theorem hostGoto_host (k : Nat) (s : State) : (hostGoto k s).host = { s.host with pos := k } := rfl
@[simp] theorem hostGoto_turns (k : Nat) (s : State) : (hostGoto k s).turns = s.turns := rfl
@[simp] theorem hostGoto_draws (k : Nat) (s : State) : (hostGoto k s).draws = s.draws := rfl

@[simp] theorem hostAdvance_lanes (s : State) : (hostAdvance s).lanes = s.lanes := rfl
@[simp] theorem hostAdvance_rc (s : State) : (hostAdvance s).rc = s.rc := rfl
@[simp] theorem hostAdvance_r (s : State) : (hostAdvance s).r = s.r := rfl
@[simp] theorem hostAdvance_blk (s : State) : (hostAdvance s).blk = s.blk := rfl
@[simp] theorem hostAdvance_len (s : State) : (hostAdvance s).len = s.len := rfl
@[simp] theorem hostAdvance_status (s : State) : (hostAdvance s).status = s.status := rfl
@[simp] theorem hostAdvance_errcause (s : State) : (hostAdvance s).errcause = s.errcause := rfl
@[simp] theorem hostAdvance_pend (s : State) : (hostAdvance s).pend = s.pend := rfl
@[simp] theorem hostAdvance_rcSeedScope (s : State) : (hostAdvance s).rcSeedScope = s.rcSeedScope := rfl
@[simp] theorem hostAdvance_host (s : State) : (hostAdvance s).host = { s.host with pos := s.host.pos + 1 } := rfl
@[simp] theorem hostAdvance_turns (s : State) : (hostAdvance s).turns = s.turns := rfl
@[simp] theorem hostAdvance_draws (s : State) : (hostAdvance s).draws = s.draws := rfl

@[simp] theorem hostSetVar_lanes (t : Nat) (b : Byte) (s : State) : (hostSetVar t b s).lanes = s.lanes := rfl
@[simp] theorem hostSetVar_rc (t : Nat) (b : Byte) (s : State) : (hostSetVar t b s).rc = s.rc := rfl
@[simp] theorem hostSetVar_r (t : Nat) (b : Byte) (s : State) : (hostSetVar t b s).r = s.r := rfl
@[simp] theorem hostSetVar_blk (t : Nat) (b : Byte) (s : State) : (hostSetVar t b s).blk = s.blk := rfl
@[simp] theorem hostSetVar_len (t : Nat) (b : Byte) (s : State) : (hostSetVar t b s).len = s.len := rfl
@[simp] theorem hostSetVar_status (t : Nat) (b : Byte) (s : State) : (hostSetVar t b s).status = s.status := rfl
@[simp] theorem hostSetVar_errcause (t : Nat) (b : Byte) (s : State) :
    (hostSetVar t b s).errcause = s.errcause := rfl
@[simp] theorem hostSetVar_pend (t : Nat) (b : Byte) (s : State) : (hostSetVar t b s).pend = s.pend := rfl
@[simp] theorem hostSetVar_rcSeedScope (t : Nat) (b : Byte) (s : State) :
    (hostSetVar t b s).rcSeedScope = s.rcSeedScope := rfl
@[simp] theorem hostSetVar_host (t : Nat) (b : Byte) (s : State) :
    (hostSetVar t b s).host = { s.host with vars := s.host.vars.write t b } := rfl
@[simp] theorem hostSetVar_turns (t : Nat) (b : Byte) (s : State) : (hostSetVar t b s).turns = s.turns := rfl
@[simp] theorem hostSetVar_draws (t : Nat) (b : Byte) (s : State) : (hostSetVar t b s).draws = s.draws := rfl

@[simp] theorem hardwareReset_lanes (s : State) : (hardwareReset s).lanes = zeroLanes := rfl
@[simp] theorem hardwareReset_rc (s : State) : (hardwareReset s).rc = rcSeed := rfl
@[simp] theorem hardwareReset_r (s : State) : (hardwareReset s).r = 0 := rfl
@[simp] theorem hardwareReset_blk (s : State) : (hardwareReset s).blk = [] := rfl
@[simp] theorem hardwareReset_len (s : State) : (hardwareReset s).len = 0 := rfl
@[simp] theorem hardwareReset_status (s : State) :
    (hardwareReset s).status = { busy := false, done := false, err := false } := rfl
@[simp] theorem hardwareReset_errcause (s : State) : (hardwareReset s).errcause = .clear := rfl
@[simp] theorem hardwareReset_pend (s : State) : (hardwareReset s).pend = none := rfl
@[simp] theorem hardwareReset_rcSeedScope (s : State) : (hardwareReset s).rcSeedScope = s.rcSeedScope := rfl
@[simp] theorem hardwareReset_host (s : State) : (hardwareReset s).host = s.host := rfl
@[simp] theorem hardwareReset_turns (s : State) : (hardwareReset s).turns = s.turns := rfl
@[simp] theorem hardwareReset_draws (s : State) : (hardwareReset s).draws = s.draws := rfl

@[simp] theorem countDraw_lanes (a : PortAddr) (s : State) :
    (countDraw a s).lanes = s.lanes := by unfold countDraw; split <;> rfl
@[simp] theorem countDraw_rc (a : PortAddr) (s : State) :
    (countDraw a s).rc = s.rc := by unfold countDraw; split <;> rfl
@[simp] theorem countDraw_r (a : PortAddr) (s : State) :
    (countDraw a s).r = s.r := by unfold countDraw; split <;> rfl
@[simp] theorem countDraw_blk (a : PortAddr) (s : State) :
    (countDraw a s).blk = s.blk := by unfold countDraw; split <;> rfl
@[simp] theorem countDraw_len (a : PortAddr) (s : State) :
    (countDraw a s).len = s.len := by unfold countDraw; split <;> rfl
@[simp] theorem countDraw_status (a : PortAddr) (s : State) :
    (countDraw a s).status = s.status := by unfold countDraw; split <;> rfl
@[simp] theorem countDraw_errcause (a : PortAddr) (s : State) :
    (countDraw a s).errcause = s.errcause := by unfold countDraw; split <;> rfl
@[simp] theorem countDraw_pend (a : PortAddr) (s : State) :
    (countDraw a s).pend = s.pend := by unfold countDraw; split <;> rfl
@[simp] theorem countDraw_rcSeedScope (a : PortAddr) (s : State) :
    (countDraw a s).rcSeedScope = s.rcSeedScope := by unfold countDraw; split <;> rfl
@[simp] theorem countDraw_host (a : PortAddr) (s : State) :
    (countDraw a s).host = s.host := by unfold countDraw; split <;> rfl
@[simp] theorem countDraw_turns (a : PortAddr) (s : State) :
    (countDraw a s).turns = s.turns := by unfold countDraw; split <;> rfl

@[simp] theorem raiseError_lanes (c : ErrCause) (s : State) :
    (raiseError c s).lanes = s.lanes := by unfold raiseError; split <;> rfl
@[simp] theorem raiseError_rc (c : ErrCause) (s : State) :
    (raiseError c s).rc = s.rc := by unfold raiseError; split <;> rfl
@[simp] theorem raiseError_r (c : ErrCause) (s : State) :
    (raiseError c s).r = s.r := by unfold raiseError; split <;> rfl
@[simp] theorem raiseError_blk (c : ErrCause) (s : State) :
    (raiseError c s).blk = s.blk := by unfold raiseError; split <;> rfl
@[simp] theorem raiseError_len (c : ErrCause) (s : State) :
    (raiseError c s).len = s.len := by unfold raiseError; split <;> rfl
@[simp] theorem raiseError_status_busy (c : ErrCause) (s : State) :
    (raiseError c s).status.busy = s.status.busy := by unfold raiseError; split <;> rfl
@[simp] theorem raiseError_status_done (c : ErrCause) (s : State) :
    (raiseError c s).status.done = s.status.done := by unfold raiseError; split <;> rfl
@[simp] theorem raiseError_status_err (c : ErrCause) (s : State) :
    (raiseError c s).status.err = true := by
  unfold raiseError; split <;> simp_all [State.setErr]
@[simp] theorem raiseError_errcause (c : ErrCause) (s : State) :
    (raiseError c s).errcause = if s.status.err then s.errcause else c := by
  unfold raiseError; split <;> rfl
@[simp] theorem raiseError_pend (c : ErrCause) (s : State) :
    (raiseError c s).pend = s.pend := by unfold raiseError; split <;> rfl
@[simp] theorem raiseError_rcSeedScope (c : ErrCause) (s : State) :
    (raiseError c s).rcSeedScope = s.rcSeedScope := by unfold raiseError; split <;> rfl
@[simp] theorem raiseError_host (c : ErrCause) (s : State) :
    (raiseError c s).host = s.host := by unfold raiseError; split <;> rfl
@[simp] theorem raiseError_turns (c : ErrCause) (s : State) :
    (raiseError c s).turns = s.turns := by unfold raiseError; split <;> rfl
@[simp] theorem raiseError_draws (c : ErrCause) (s : State) :
    (raiseError c s).draws = s.draws := by unfold raiseError; split <;> rfl

end Sys2Proof.Machine
end

