-- ==== Sys2Proof/Laws/Ops.lean ====
section
/-! SUPPORT. What each shared operation can do, said once: issue, the port accesses, the completions, the host's step and
the machine's step. -/
namespace Sys2Proof.Machine

/-- Issue either drops the command and records an error, or finds all its checks passed and latches it (R94). -/
theorem issue_cases (v : Byte) (s : State) :
    (∃ c, issueError v s = some c ∧ issue v s = raiseError c s) ∨
      (issueError v s = none ∧ issue v s = latchCommand v s) := by
  unfold issue
  cases h : issueError v s with
  | none => exact .inr ⟨rfl, rfl⟩
  | some c => exact .inl ⟨c, rfl, rfl⟩

/-- What a passed check says (R94). -/
theorem issueError_none (v : Byte) (s : State) (h : issueError v s = none) :
    s.status.busy = false ∧ v.toNat ≤ 0x04 ∧ (v = 0x03 → s.len.toNat ≤ 135) ∧
      (v = 0x02 ∨ v = 0x03 → s.status.done = false) := by
  unfold issueError at h
  split at h
  · cases h
  · split at h
    · cases h
    · split at h
      · cases h
      · split at h
        · cases h
        · next h1 h2 h3 h4 =>
          refine ⟨by simpa using h1, by omega, fun hv => ?_, fun hv => ?_⟩
          · by_contra hl
            exact h3 ⟨hv, by omega⟩
          · by_contra hd
            exact h4 ⟨hv, by simpa using hd⟩

/-- A recorded cause is never `clear` (R94, R102). -/
theorem issueError_some (v : Byte) (s : State) (c : ErrCause) (h : issueError v s = some c) : c ≠ .clear := by
  unfold issueError at h
  repeat' split at h
  all_goals first | (cases h; done) | (cases h; simp)

/-- A port write that answers a next state is one of these four (R93). -/
theorem memWrite_cases (a : PortAddr) (v : Byte) (s t : State) (h : memWrite a v s = .next t) :
    (a.toNat < 0x088 ∧ pendingReads a.toNat s = false ∧ t = writeBlk a.toNat v s) ∨
      (a.toNat = 0x090 ∧ t = issue v s) ∨ (a.toNat = 0x091 ∧ t = setLen v s) ∨
      (0x088 ≤ a.toNat ∧ a.toNat ≠ 0x090 ∧ a.toNat ≠ 0x091 ∧ t = s) := by
  unfold memWrite at h
  split at h
  · split at h
    · cases h
    · next h1 h2 => cases h; exact .inl ⟨h1, by simpa using h2, rfl⟩
  · split at h
    · next h1 => cases h; exact .inr (.inl ⟨h1, rfl⟩)
    · split at h
      · next h1 => cases h; exact .inr (.inr (.inl ⟨h1, rfl⟩))
      · cases h; exact .inr (.inr (.inr ⟨by omega, by assumption, by assumption, rfl⟩))

/-- A completion runs a command that its latch's byte decodes to (R95). -/
theorem complete_cases (s t : State) (h : complete s = .next t) :
    ∃ p i, s.pend = some p ∧ decode p.op = .ok i ∧ exec i s = .next t := by
  unfold complete fetchOp at h
  cases hp : s.pend with
  | none => simp [hp] at h
  | some p =>
    cases hd : decode p.op with
    | error e => simp [hp, hd] at h
    | ok i => exact ⟨p, i, rfl, hd, by simpa [hp, hd] using h⟩

/-- What ABSORB's completion can answer (R98). -/
theorem execAbsorb_cases (s t : State) (h : exec .absorb s = .next t) :
    ∃ bs, s.blk.readRange 0 136 = .ok bs ∧
      t = endCommand (setSponge (absorbBlock s.rcSeedScope (s.lanes, s.rc) (blockAt bs 0)) s) := by
  simp only [exec, execAbsorb, absorbOperand] at h
  split at h
  · cases h
  · next bs hbs => exact ⟨bs, hbs, (Host.Outcome.next.inj h).symm⟩

/-- What FINAL's completion can answer (R99). -/
theorem execFinal_cases (s t : State) (h : exec .final s = .next t) :
    ∃ p bs, s.pend = some p ∧ p.len.toNat ≤ 135 ∧ s.blk.readRange 0 p.len.toNat = .ok bs ∧
      t = endCommand (finalEffect bs s) := by
  simp only [exec, execFinal, latchedLen, finalOperand] at h
  cases hp : s.pend with
  | none => simp [hp] at h
  | some p =>
    by_cases hl : p.len.toNat ≤ 135
    · cases hbs : s.blk.readRange 0 p.len.toNat with
      | error f => simp [hp, hl, hbs] at h
      | ok bs =>
        simp only [hp, hl, hbs, if_true] at h
        exact ⟨p, bs, rfl, hl, hbs, (Host.Outcome.next.inj h).symm⟩
    · simp [hp, hl] at h

/-- A statement of the host that answers a next state is one of these (R56). -/
theorem hostStep_cases (s t : State) (h : hostStep s = .next t) :
    (s.host.prog[s.host.pos]? = none ∧ t = s) ∨
      (∃ a v, s.host.prog[s.host.pos]? = some (.wr a v) ∧ memWrite a v (hostAdvance s) = .next t) ∨
      (∃ a x b, s.host.prog[s.host.pos]? = some (.rd a x) ∧ memRead a s = .ok b ∧
        t = hostAdvance (hostSetVar x b (countDraw a s))) ∨
      (∃ k, t = hostGoto k s) := by
  unfold hostStep at h
  split at h
  · next hq => cases h; exact .inl ⟨hq, rfl⟩
  · next a v hq => exact .inr (.inl ⟨a, v, hq, h⟩)
  · next a x hq =>
    unfold hostRead at h
    split at h
    · cases h
    · next b hb => cases h; exact .inr (.inr (.inl ⟨a, x, b, hq, hb, rfl⟩))
  · cases h; exact .inr (.inr (.inr ⟨_, rfl⟩))
  · unfold hostBranch at h
    split at h
    · cases h
    · split at h
      · cases h; exact .inr (.inr (.inr ⟨_, rfl⟩))
      · split at h
        · cases h
        · cases h; exact .inr (.inr (.inr ⟨_, rfl⟩))

/-- A step that answers a next state is a reset, a completion, an engine's turn with nothing pending, or the host's
(R91). The state it acts on has its turn taken. -/
theorem step_cases (s t : State) (h : step s = .next t) :
    (∃ ts, s.turns = .reset :: ts ∧ t = hardwareReset (setTurns ts s)) ∨
      (s.status.busy = true ∧ ∃ ts, complete (setTurns ts s) = .next t ∧
        (s.turns = .engine :: ts ∨ (s.turns = [] ∧ ts = []))) ∨
      (s.status.busy = false ∧ ∃ ts, s.turns = .engine :: ts ∧ t = setTurns ts s) ∨
      (∃ ts, hostStep (setTurns ts s) = .next t ∧
        (s.turns = .host :: ts ∨ (s.turns = [] ∧ ts = [] ∧ s.status.busy = false))) := by
  have same : s.turns = [] → setTurns [] s = s := fun h0 => by
    cases s; simp only at h0; subst h0; rfl
  unfold step at h
  split at h
  · next ts ht => cases h; exact .inl ⟨ts, ht, rfl⟩
  · next ts ht =>
    unfold engineStep at h
    split at h
    · next hb => exact .inr (.inl ⟨by simpa using hb, ts, h, .inl ht⟩)
    · next hb => cases h; exact .inr (.inr (.inl ⟨by simpa using hb, ts, ht, rfl⟩))
  · next ts ht => exact .inr (.inr (.inr ⟨ts, h, .inl ht⟩))
  · next ht =>
    unfold defaultStep at h
    split at h
    · next hb => exact .inr (.inl ⟨hb, [], by rw [same ht]; exact h, .inr ⟨ht, rfl⟩⟩)
    · next hb => exact .inr (.inr (.inr ⟨[], by rw [same ht]; exact h, .inr ⟨ht, rfl, by simpa using hb⟩⟩))

/-- When a completion reads a BLK byte (R121). -/
theorem pendingReads_iff (a : Nat) (s : State) :
    pendingReads a s = true ↔
      s.status.busy = true ∧ ∃ p, s.pend = some p ∧ (p.op = 0x02 ∨ p.op = 0x03 ∧ a < p.len.toNat) := by
  unfold pendingReads
  cases s.pend <;> simp

/-- A port address is a number below 512. -/
theorem portAddr_eq_iff (a : PortAddr) (n : Nat) (h : n < 512) : a = BitVec.ofNat 9 n ↔ a.toNat = n := by
  constructor
  · intro h1; subst h1; simp; omega
  · intro h1; apply BitVec.eq_of_toNat_eq; simp [h1]; omega

/-- What a step of the host can change of the engine: nothing; one BLK byte; the command latch or the error fields, by
a write to CMD; or LEN. -/
theorem hostStep_engine (s t : State) (h : hostStep s = .next t) :
    (t.lanes = s.lanes ∧ t.blk = s.blk ∧ t.len = s.len ∧ t.status = s.status ∧ t.errcause = s.errcause) ∨
      ∃ a v, s.host.prog[s.host.pos]? = some (.wr a v) ∧ t.lanes = s.lanes ∧
        ((a.toNat < 0x088 ∧ t.blk = s.blk.write a.toNat v ∧ t.len = s.len ∧ t.status = s.status ∧
            t.errcause = s.errcause) ∨
          (a.toNat = 0x090 ∧ t.blk = s.blk ∧ t.len = s.len ∧ t.status.done = s.status.done ∧
            ((t.status.err = s.status.err ∧ t.errcause = s.errcause) ∨
              (t.status.err = true ∧ (s.status.err = true → t.errcause = s.errcause) ∧
                (s.status.err = false → t.errcause ≠ .clear)))) ∨
          (a.toNat = 0x091 ∧ t.blk = s.blk ∧ t.len = v ∧ t.status = s.status ∧ t.errcause = s.errcause)) := by
  rcases hostStep_cases s t h with ⟨-, rfl⟩ | ⟨a, v, hq, hw⟩ | ⟨a, x, b, -, -, rfl⟩ | ⟨k, rfl⟩
  · exact .inl ⟨rfl, rfl, rfl, rfl, rfl⟩
  · rcases memWrite_cases _ _ _ _ hw with ⟨h1, -, rfl⟩ | ⟨h1, rfl⟩ | ⟨h1, rfl⟩ | ⟨-, -, -, rfl⟩
    · exact .inr ⟨a, v, hq, rfl, .inl ⟨h1, rfl, rfl, rfl, rfl⟩⟩
    · rcases issue_cases v (hostAdvance s) with ⟨c, h2, h3⟩ | ⟨h2, h3⟩ <;> rw [h3]
      · refine .inr ⟨a, v, hq, by simp, .inr (.inl ⟨h1, by simp, by simp, by simp, .inr ⟨by simp, fun h => by simp [h],
          fun h => ?_⟩⟩)⟩
        simpa [h] using issueError_some _ _ _ h2
      · exact .inr ⟨a, v, hq, rfl, .inr (.inl ⟨h1, rfl, rfl, rfl, .inl ⟨rfl, rfl⟩⟩)⟩
    · exact .inr ⟨a, v, hq, rfl, .inr (.inr ⟨h1, rfl, rfl, rfl, rfl⟩)⟩
    · exact .inl ⟨rfl, rfl, rfl, rfl, rfl⟩
  · exact .inl ⟨by simp, by simp, by simp, by simp, by simp⟩
  · exact .inl ⟨rfl, rfl, rfl, rfl, rfl⟩

/-- FINAL's completion when its bytes are written. -/
theorem execFinal_written (s : State) (p : Pending) (bs : List Byte) (h1 : s.pend = some p)
    (h2 : bs.length = p.len.toNat) (h3 : p.len.toNat ≤ 135)
    (h4 : ∀ (j : Nat) (h : j < bs.length), s.blk.read j = some bs[j]) :
    exec .final s = .next (endCommand (finalEffect bs s)) := by
  have hr := Memory.readRange_ok s.blk bs 0 (fun j hj => by rw [Nat.zero_add]; exact h4 j hj)
  simp only [exec, execFinal, latchedLen, finalOperand, h1, h3, if_true]
  rw [← h2, hr]

end Sys2Proof.Machine
end

