-- ==== Sys2Proof/Laws/PerInstr.lean ====
section
/-! SUPPORT. A fact about every command as it stands in the table, one lemma per constructor: its byte's value, read from
spec/opcode_table.json, and that the decoder reads that command from it. -/
namespace Sys2Proof.Laws

/-- The `match` column of spec/opcode_table.json (R53). -/
def tableByte (i : Instr) : Nat :=
  match i with
  | .nop => 0x00
  | .init => 0x01
  | .absorb => 0x02
  | .final => 0x03
  | .permute => 0x04

/-- The command's byte is the table's, and decodes to the command. -/
def OpcodeRow.Statement (i : Instr) : Prop :=
  (encode i).toNat = tableByte i ∧ decodeTableWord 8 (tableByte i) = some i

theorem OpcodeRow.nop : OpcodeRow.Statement .nop := ⟨rfl, rfl⟩
theorem OpcodeRow.init : OpcodeRow.Statement .init := ⟨rfl, rfl⟩
theorem OpcodeRow.absorb : OpcodeRow.Statement .absorb := ⟨rfl, rfl⟩
theorem OpcodeRow.final : OpcodeRow.Statement .final := ⟨rfl, rfl⟩
theorem OpcodeRow.permute : OpcodeRow.Statement .permute := ⟨rfl, rfl⟩

end Sys2Proof.Laws
end

