-- ==== Sys2Proof/Tests/Slice0.lean ====
section
/-! SUPPORT. The model's own tests, and a witness for every statement that has hypotheses. Expected values come from the
spec: 30_encoding R53, 95_test_vectors sections 2, 3 and 5, and the worked examples of the rules named at each test. -/
namespace Sys2Proof.Tests
open Sys2Proof.Machine

/-! Helpers -/

/-- The next state, if there is one. -/
def nextOf (o : Host.Outcome State Fault Refusal) : Option State :=
  match o with
  | .next s => some s
  | .fault _ => none
  | .refused _ => none

/-- The fault, if there is one. -/
def faultOf (o : Host.Outcome State Fault Refusal) : Option Fault :=
  match o with
  | .next _ => none
  | .fault f => some f
  | .refused _ => none

/-- `BLK[0..n)` all 0x61. -/
def blkA (n : Nat) : Memory := (List.range n).map fun j => (j, 0x61)

/-- An idle engine. -/
def idle (len : Byte) (done : Bool) (blk : Memory) : State :=
  { State.reset with len := len, status := { busy := false, done := done, err := false }, blk := blk }

/-- A pending command. -/
def pending (op len : Byte) (done : Bool) (blk : Memory) : State :=
  { State.reset with
    pend := some { op := op, len := len }, status := { busy := true, done := done, err := false }, blk := blk }

/-- A host with one statement, in its turn. -/
def hostDoing (q : HostStmt) (s : State) : State :=
  { s with host := { prog := [q], pos := 0, vars := [] }, turns := [.host] }

/-- The State with one nonzero lane. -/
def oneLane (i : Fin 25) (v : Lane) : Lanes := zeroLanes.set i v

/-! Decoding: the words of R53 -/

theorem test_decode_nop : decode 0b00000000 = .ok .nop := by decide
theorem test_decode_init : decode 0b00000001 = .ok .init := by decide
theorem test_decode_absorb : decode 0b00000010 = .ok .absorb := by decide
theorem test_decode_final : decode 0b00000011 = .ok .final := by decide
theorem test_decode_permute : decode 0b00000100 = .ok .permute := by decide
theorem test_decode_05_illegal : decode 0b00000101 = .error (.illegalOpcode 0x05) := by decide
theorem test_decode_ff_illegal : decode 0b11111111 = .error (.illegalOpcode 0xFF) := by decide
theorem test_table_word_permute : decodeTableWord 8 4 = some .permute := by decide
theorem test_table_word_too_wide : decodeTableWord 8 0x104 = none := by decide

/-! Well-formedness: one ill-formed operand for the one check (R54) -/

theorem test_final_136_ill_formed : Instr.operandOk .final 136 = false := by decide
theorem test_final_135_well_formed : Instr.operandOk .final 135 = true := by decide
theorem test_absorb_ignores_len : Instr.operandOk .absorb 255 = true := by decide

/-! The round steps (R58, R60 to R65; 95_test_vectors 2.1 to 2.4) -/

theorem test_rotate_36 : rotateRight 0x0123456789ABCDEF 36 = 0x789ABCDEF0123456 := by decide
theorem test_rotate_0 : rotateRight 0x00000000DEADBEEF 0 = 0x00000000DEADBEEF := by decide
theorem test_theta_lane7 : thetaStep (oneLane 7 0x8000000000000001) =
    #v[0xC000000000000000, 0xC000000000000000, 0xC000000000000000, 0xC000000000000000, 0xC000000000000000,
       0, 0, 0x8000000000000001, 0, 0,
       0x8000000000000001, 0x8000000000000001, 0x8000000000000001, 0x8000000000000001, 0x8000000000000001,
       0, 0, 0, 0, 0, 0, 0, 0, 0, 0] := by decide +kernel
theorem test_rho_lane6 : (rhoStep (oneLane 6 1))[6] = 0x0000000000100000 := by decide
theorem test_pi_lane1_goes_to_10 : piStep (oneLane 1 1) = oneLane 10 1 := by decide +kernel
theorem test_chi_row : (chiStep (((oneLane 0 0x0F).set 1 0x33).set 2 0x55)).toList =
    ([0x4B, 0x33, 0x55, 0x0F, 0x30] : List Lane) ++ List.replicate 20 0 := by decide +kernel
theorem test_iota_cancels : iotaStep (oneLane 0 1) 1 = zeroLanes := by decide +kernel
theorem test_round_two : (oneRound (oneRound (oneLane 0 1) 1) 2)[24] = 0x8000080000080000 := by decide +kernel

/-! The round constants, padding and codec (R68, R74, R88; 95_test_vectors 2.6, 3, 4.5) -/

theorem test_lfsr_tap : lfsrNext 0x8000000000000000 = 0xC000000000000001 := by decide
theorem test_lfsr_all_ones : lfsrNext 0xFFFFFFFFFFFFFFFF = 0x3FFFFFFFFFFFFFFF := by decide
theorem test_pad_133 : pad 133 = [0x80, 0x00, 0x01] := by decide
theorem test_pad_134_length : (pad 134).length = 138 := by decide +kernel
theorem test_codec_2025 : bytesToLanes (n := 1) #v[0x32, 0x30, 0x32, 0x35, 0x80, 0x00, 0x00, 0x00] =
    #v[0x0000008035323032] := by decide +kernel
theorem test_codec_bytes : lanesToBytes (n := 1) #v[0x0B32BC7B38DBDA0A] =
    #v[0x0A, 0xDA, 0xDB, 0x38, 0x7B, 0xBC, 0x32, 0x0B] := by decide +kernel

/-! Commands: one step each (95_test_vectors 2.5, 4.1, 5) -/

/-- Section 2.5: PERMUTE on the zero State. -/
theorem test_permute_zero_state :
    (nextOf (step (State.reset.withFetchWord 8 4))).map (fun s => (s.lanes.toList, s.rc, s.status.byte)) =
      some ([0x3C5DC051D48F3BF7, 0x402F268E6B6EAC2C, 0xA6D47732859F42E6, 0x1F0A03AD75C0C347, 0x662B39C499603FCD,
        0x43DC1325659AFCA7, 0x9315FBF45D293FD8, 0x2D1E6B5C311C4087, 0x7E25520148657C37, 0xA9A38C968C54AA42,
        0x23A560AFB6E83A3F, 0x84148D96F712AEC7, 0xE2AE1761497A9B91, 0x76D8E3B79AE80DAA, 0x6B7B82B6479BD6A1,
        0xBC4528AD0A0627F8, 0x38003368C10E5182, 0x8F0396CC77E78E92, 0x21CB414BF10C7E48, 0x89EB3FA60AA75769,
        0x3337EE5D92449C94, 0x934362CFC31CADB6, 0xDE730B5D5A11976B, 0xD7F091591D114484, 0x10D66530095E517A],
        0x0000000001000000, 0x00) := by
  decide +kernel

/-- Section 4.1: FINAL of "2025" from the reset State; the full State after it, in both seedings the same. -/
theorem test_final_2025 :
    (nextOf (exec .final { pending 0x03 4 false [(0, 0x32), (1, 0x30), (2, 0x32), (3, 0x35)] with
        rcSeedScope := .perInit })).map (fun s => (s.lanes.toList, s.rc, s.status.byte)) =
      some ([0x03321AD192B89970, 0x520824E23CE808D9, 0x00E95170DEDE7B97, 0x19930F540C2E1527, 0x61E18203D6C31E5D,
        0x973D052771920BCC, 0x447AB10E5C4FE89B, 0x942A7707DF3C200B, 0x451B5F4276EF79C2, 0x81D798E20F3E4106,
        0x1B525F343D8DB408, 0xA36E42D1DF248B51, 0x08C2D079F622D9F1, 0x760C7A4D58628193, 0xED38B1215D0A8E0E,
        0xAE837691B952D714, 0x8F31ABF0A001F3A3, 0x99B8C9995C7917E7, 0x6A5221ACB0C7AB86, 0xD48ADE3D53099595,
        0x2DD1D55D1B9CC464, 0xA2B778102484C4D6, 0x77C778DD9FABB5B0, 0xBF5A8397A7F74674, 0xEC9391D1C9B42F09],
        0x0000000001000000, 0x02) := by
  decide +kernel

/-- R96: from STATUS = 0x02, NOP leaves STATUS = 0x02. -/
theorem test_nop_keeps_done : (nextOf (exec .nop (pending 0x00 0 true []))).map (·.status.byte) = some 0x02 := by
  decide
/-- Section 5, row 9: INIT clears the OVERRUN raised while it was pending. -/
theorem test_init_clears_overrun :
    (nextOf (exec .init (issue 0x00 (pending 0x01 0 false [])))).map (fun s => (s.status.byte, s.errcause)) =
      some (0x00, .clear) := by decide
/-- Section 5: ABSORB with no BLK write faults. -/
theorem test_absorb_unwritten :
    faultOf (step (State.reset.withFetchWord 8 2)) = some (.unwrittenBlk 0) := by decide
/-- R98: ABSORB reads BLK[135] too. -/
theorem test_absorb_reads_last_byte :
    faultOf (exec .absorb (pending 0x02 0 false (blkA 135))) = some (.unwrittenBlk 135) := by decide +kernel

/-! The host port (R92 to R94, R104, R121; 95_test_vectors 5) -/

theorem test_overrun_first : (issue 0x03 (pending 0x04 200 true [])).errcause = .overrun := by decide
theorem test_bad_length_before_phase : (issue 0x03 (idle 200 true [])).errcause = .badLength := by decide
theorem test_phase : (issue 0x03 (idle 5 true [])).errcause = .phase := by decide
theorem test_illegal_ff : (issue 0xFF (idle 200 true [])).errcause = .illegalOpcode := by decide
theorem test_permute_after_final : (issue 0x04 (idle 0 true [])).status.byte = 0x03 := by decide
theorem test_length_135_legal : (issue 0x03 (idle 135 false [])).pend = some { op := 0x03, len := 135 } := by decide
theorem test_length_136_illegal : (issue 0x03 (idle 136 false [])).errcause = .badLength := by decide
theorem test_first_cause_kept :
    (issue 0x03 { issue 0x07 State.reset with len := 0xC8 }).errcause = .illegalOpcode := by decide
theorem test_blk_hazard :
    faultOf (memWrite 0x000 0x62 (pending 0x03 1 false (blkA 1))) = some (.blkHazard 0) := by decide
theorem test_no_hazard_above_len :
    (nextOf (memWrite 0x001 0x62 (pending 0x03 1 false (blkA 1)))).map (·.blk) = some [(0, 0x61), (1, 0x62)] := by
  decide
theorem test_status_write_ignored : (nextOf (memWrite 0x092 0xFF State.reset)) = some State.reset := by decide
/-- R28, R102: the code the host reads for PHASE, and for OVERRUN. -/
theorem test_read_phase_code : memRead 0x093 (issue 0x02 (idle 0 true [])) = .ok 0x03 := by rfl
theorem test_read_overrun_code : memRead 0x093 (issue 0x00 (pending 0x04 0 false [])) = .ok 0x04 := by rfl
theorem test_read_reserved : memRead 0x0A0 State.reset = .ok 0x00 := by rfl
theorem test_read_window : memRead 0x1C7 { State.reset with lanes := oneLane 24 0x1000000000000000 } = .ok 0x10 := by
  decide +kernel

/-! Reset and the host's statements (R56, R57, R116) -/

theorem test_reset_discards_pending :
    (nextOf (step { pending 0x04 0 true (blkA 2) with turns := [.reset] })) = some State.reset := by decide
theorem test_host_branch_taken :
    (nextOf (hostStep { State.reset with
      host := { prog := hostWait 7 1, pos := 2, vars := [(1, 0x05)] } })).map (·.host.pos) = some 0 := by decide
theorem test_host_branch_not_taken :
    (nextOf (hostStep { State.reset with
      host := { prog := hostWait 7 1, pos := 2, vars := [(1, 0x04)] } })).map (·.host.pos) = some 3 := by decide
theorem test_hash_procedure_of_empty_message :
    hashProcedure [] = [.wr 0x090 0x01, .label 0, .rd 0x092 32, .bnz 32 0x01 0, .wr 0x091 0x00, .wr 0x090 0x03,
      .label 1, .rd 0x092 32, .bnz 32 0x01 1] ++ hostRddigest 0 := by decide

/-! Witnesses: for every statement with hypotheses, and for each of its clauses, a state that meets them -/

theorem witness_rotateRight_above_zero : (1 : Nat) ≤ (63 : Fin 64).val := by decide
theorem witness_theta_zero_parities :
    ∀ g < 5, (zeroLanes.toList.getD (5*g) 0 ^^^ zeroLanes.toList.getD (5*g+1) 0 ^^^ zeroLanes.toList.getD (5*g+2) 0 ^^^
      zeroLanes.toList.getD (5*g+3) 0 ^^^ zeroLanes.toList.getD (5*g+4) 0) = 0 := by decide
theorem witness_rho_unchanged_lanes : zeroLanes[(3 : Fin 25)] = 0 ∧
    (oneLane 3 0xFFFFFFFFFFFFFFFF)[(3 : Fin 25)] = 0xFFFFFFFFFFFFFFFF := by decide
theorem witness_lane_and_bit_ranges : (1 : Fin 25) ≠ 0 ∧ (24 : Fin 25) ≠ 0 ∧ 0 < 24 ∧ 23 < 24 ∧ 24 ≤ 24 ∧ 0 < 64 ∧
    63 < 64 := by decide
theorem witness_lfsr_both_branches :
    (0x4000000000000000 : Lane).getLsbD 63 = false ∧ (0x8000000000000000 : Lane).getLsbD 63 = true := by decide
theorem witness_tail_lengths : ([] : List Byte).length ≤ 133 ∧ (List.replicate 133 (0 : Byte)).length ≤ 133 ∧
    (List.replicate 134 (0 : Byte)).length = 134 ∧ (List.replicate 135 (0 : Byte)).length = 135 := by simp
theorem witness_codec_bit : (7 : Nat) < 8 := by decide
theorem witness_absorb_capacity_lane : 17 ≤ (17 : Fin 25).val ∧ 17 ≤ (24 : Fin 25).val := by decide
theorem witness_squeeze_low_lanes_agree : ∀ i : Fin 4, zeroLanes[i.val] = (oneLane 4 1)[i.val] := by decide
theorem witness_short_message : (List.replicate 133 (0x61 : Byte)).length ≤ 133 := by simp

/-- The state ABSORB leaves of the block 136 × 0x61. -/
def afterOneBlock : State :=
  endCommand (setSponge (absorbBlock .perPermutation (zeroLanes, 1) (blockAt (List.replicate 136 0x61) 0))
    (pending 0x02 0 false (blkA 136)))

theorem blkA_holds (n k : Nat) (hk : k ≤ n) (s : State) (hs : s.blk = blkA n) :
    BlkHolds (List.replicate k 0x61) s := by
  have key : ∀ j < n, (blkA n).read j = some 0x61 := by
    have base : ∀ (m a : Nat), a < m → ∀ b,
        Memory.read ((List.range' b m).map fun j => ((j, 0x61) : Host.Cell)) (b + a) = some 0x61 := by
      intro m
      induction m with
      | zero => intro a h; omega
      | succ m ih =>
        intro a ha b
        rw [List.range'_succ, List.map_cons, Memory.read]
        by_cases h0 : a = 0
        · simp [h0]
        · rw [if_neg (by omega)]
          have := ih (a - 1) (by omega) (b + 1)
          rwa [show b + 1 + (a - 1) = b + a by omega] at this
    intro j hj
    have := base n j hj 0
    rwa [Nat.zero_add, ← List.range_eq_range'] at this
  intro j hj
  rw [List.length_replicate] at hj
  rw [hs, key j (by omega), List.getElem_replicate]

theorem absorb_one_block : exec .absorb (pending 0x02 0 false (blkA 136)) = .next afterOneBlock := by
  have hr := Memory.readRange_ok (blkA 136) (List.replicate 136 0x61) 0 (fun j hj => by
    rw [Nat.zero_add]; exact blkA_holds 136 136 (by omega) (pending 0x02 0 false (blkA 136)) rfl j hj)
  rw [List.length_replicate] at hr
  simp only [exec, execAbsorb, absorbOperand, pending, hr, afterOneBlock]
  rfl

theorem sameSponge_issue (s : State) (p : Option Pending) (x : Status) :
    SameSponge s { s with pend := p, status := x } := ⟨rfl, rfl, rfl⟩

/-- CommandsComputeHash: one full block absorbed, then FINAL pending with an empty tail, and with a tail of 135. -/
theorem witness_CommandsComputeHash (k : Nat) (hk : k = 0 ∨ k = 135) :
    ∃ s t : State, ∃ p : Pending, s.lanes = Vector.replicate 25 0 ∧ s.rc = 0x0000000000000001 ∧
      AbsorbRun s [List.replicate 136 0x61] t ∧ (List.replicate k (0x61 : Byte)).length ≤ 135 ∧ t.pend = some p ∧
      p.len.toNat = (List.replicate k (0x61 : Byte)).length ∧ BlkHolds (List.replicate k 0x61) t := by
  refine ⟨State.reset, { afterOneBlock with
    pend := some { op := 0x03, len := BitVec.ofNat 8 k }, status := { busy := true, done := false, err := false } },
    { op := 0x03, len := BitVec.ofNat 8 k }, rfl, rfl, ?_, ?_, rfl, ?_, ?_⟩
  · exact .cons _ (pending 0x02 0 false (blkA 136)) afterOneBlock _ _ _ ⟨rfl, rfl, rfl⟩ (by simp)
      (blkA_holds 136 136 (by omega) _ rfl) absorb_one_block (.nil _ _ (sameSponge_issue _ _ _))
  · rcases hk with rfl | rfl <;> simp
  · rcases hk with rfl | rfl <;> simp
  · exact blkA_holds 136 k (by omega) _ rfl

/-! HostReadFollowsMap and HostWriteFollowsMap: each clause at the ends of its range -/

theorem witness_read_blk_written : (0x087 : PortAddr).toNat ≤ 0x087 ∧ (blkA 136).read (0x087 : PortAddr).toNat = some 0x61 := by
  decide +kernel
theorem witness_read_blk_unwritten : (0x000 : PortAddr).toNat ≤ 0x087 ∧ State.reset.blk.read (0x000 : PortAddr).toNat = none := by
  decide
theorem witness_read_window_idle : (0x100 : PortAddr).toNat = 0x100 + (0 : Fin 200).val ∧
    (0x1C7 : PortAddr).toNat = 0x100 + (199 : Fin 200).val ∧ State.reset.status.busy = false := by decide
theorem witness_read_window_busy : 0x100 ≤ (0x1C7 : PortAddr).toNat ∧ (0x1C7 : PortAddr).toNat ≤ 0x1C7 ∧
    (pending 0x04 0 false []).status.busy = true := by decide
theorem witness_read_reserved : 0x088 ≤ (0x08F : PortAddr).toNat ∧ (0x08F : PortAddr).toNat ≤ 0x08F ∧
    0x094 ≤ (0x0FF : PortAddr).toNat ∧ (0x0FF : PortAddr).toNat ≤ 0x0FF ∧ 0x1C8 ≤ (0x1C8 : PortAddr).toNat ∧
    0x1C8 ≤ (0x1FF : PortAddr).toNat := by decide
theorem witness_read_errcause :
    State.reset.errcause = .clear ∧ (issue 0x05 State.reset).errcause = .illegalOpcode ∧
    (issue 0x03 (idle 136 false [])).errcause = .badLength ∧ (issue 0x02 (idle 0 true [])).errcause = .phase ∧
    (issue 0x00 (pending 0x04 0 false [])).errcause = .overrun := by decide
theorem witness_host_read_answers : memRead 0x087 (idle 0 false [(0x087, 0x61)]) = .ok 0x61 ∧
    memRead 0x092 State.reset = .ok 0x00 := ⟨rfl, rfl⟩
theorem witness_host_read_faults : memRead 0x000 State.reset = .error (.unwrittenBlk 0x000) := rfl
theorem witness_write_hazard : (0x087 : PortAddr).toNat ≤ 0x087 ∧ (pending 0x02 0 false []).status.busy = true ∧
    ∃ p, (pending 0x02 0 false []).pend = some p ∧ (p.op = 0x02 ∨ p.op = 0x03 ∧ 0x087 < p.len.toNat) :=
  ⟨by decide, rfl, _, rfl, .inl rfl⟩
theorem witness_write_hazard_final : (134 : PortAddr).toNat ≤ 0x087 ∧ (pending 0x03 135 false []).status.busy = true ∧
    ∃ p, (pending 0x03 135 false []).pend = some p ∧ (p.op = 0x02 ∨ p.op = 0x03 ∧ (134 : PortAddr).toNat < p.len.toNat) :=
  ⟨by decide, rfl, _, rfl, .inr (by decide)⟩
theorem witness_write_no_hazard : (135 : PortAddr).toNat ≤ 0x087 ∧ ¬ ((pending 0x03 135 false []).status.busy = true ∧
    ∃ p, (pending 0x03 135 false []).pend = some p ∧ (p.op = 0x02 ∨ p.op = 0x03 ∧ (135 : PortAddr).toNat < p.len.toNat)) := by
  refine ⟨by decide, ?_⟩
  rintro ⟨-, p, hp, h⟩
  cases hp
  revert h
  decide
theorem witness_write_ignored : 0x088 ≤ (0x088 : PortAddr).toNat ∧ (0x088 : PortAddr) ≠ 0x090 ∧ (0x088 : PortAddr) ≠ 0x091 ∧
    0x088 ≤ (0x1FF : PortAddr).toNat ∧ (0x1FF : PortAddr) ≠ 0x090 ∧ (0x1FF : PortAddr) ≠ 0x091 := by decide
theorem witness_BlkWriteStoresOneByte : (0x087 : PortAddr).toNat ≤ 0x087 ∧ ∃ t, memWrite 0x087 0x62 State.reset = .next t :=
  ⟨by decide, _, rfl⟩

/-! Issue, errors and the commands -/

theorem witness_issue_overrun : (pending 0x04 0 false []).status.busy = true := rfl
theorem witness_issue_illegal : (idle 0 false []).status.busy = false ∧ 0x04 < (0x05 : Byte).toNat := by decide
theorem witness_issue_bad_length : (idle 136 true []).status.busy = false ∧ 135 < (idle 136 true []).len.toNat := by decide
theorem witness_issue_phase : (idle 135 true []).status.busy = false ∧ (idle 135 true []).len.toNat ≤ 135 ∧
    (idle 135 true []).status.done = true ∧ (idle 200 true []).status.done = true := by decide
theorem witness_issue_latches : (idle 135 false []).status.busy = false ∧ (0x03 : Byte).toNat ≤ 0x04 ∧
    (idle 135 false []).len.toNat ≤ 135 ∧ (idle 135 false []).status.done = false ∧
    (idle 255 true []).status.busy = false ∧ (0x04 : Byte).toNat ≤ 0x04 ∧ (0x04 : Byte) ≠ 0x03 ∧ (0x04 : Byte) ≠ 0x02 := by
  decide
theorem witness_error_flag : (issue 0x07 State.reset).status.err = true ∧ State.reset.status.err = false := by decide
theorem witness_AbsorbCompletes : BlkHolds (Vector.replicate 136 0x61 : Block).toList (pending 0x02 0 false (blkA 136)) := by
  rw [Vector.toList_replicate]
  exact blkA_holds 136 136 (by omega) _ rfl
theorem witness_FinalCompletes (L : Byte) (h : L = 0 ∨ L = 135) :
    ∃ p bs, (pending 0x03 L false (blkA 135)).pend = some p ∧ bs.length = p.len.toNat ∧ p.len.toNat ≤ 135 ∧
      BlkHolds bs (pending 0x03 L false (blkA 135)) := by
  have hl : L.toNat ≤ 135 := by rcases h with rfl | rfl <;> decide
  exact ⟨{ op := 0x03, len := L }, List.replicate L.toNat 0x61, rfl, List.length_replicate .., hl,
    blkA_holds 135 _ hl _ rfl⟩
theorem witness_absorb_byte_unwritten : ∃ j < 136, (pending 0x02 0 false (blkA 135)).blk.read j = none :=
  ⟨135, by decide, by decide +kernel⟩
theorem witness_final_byte_unwritten : ∃ p, (pending 0x03 2 false (blkA 1)).pend = some p ∧ p.len.toNat ≤ 135 ∧
    ∃ j < p.len.toNat, (pending 0x03 2 false (blkA 1)).blk.read j = none :=
  ⟨_, rfl, by decide, 1, by decide, by decide⟩
theorem witness_CompletionFrame : (∃ t, exec .nop (pending 0x00 0 false []) = .next t) ∧
    (∃ t, exec .init (pending 0x01 0 true []) = .next t) ∧
    (∃ t, exec .absorb (pending 0x02 0 false (blkA 136)) = .next t) ∧
    (∃ t, exec .final (pending 0x03 0 false []) = .next t) ∧
    (∃ t, exec .permute (pending 0x04 0 true []) = .next t) :=
  ⟨⟨_, rfl⟩, ⟨_, rfl⟩, ⟨_, absorb_one_block⟩,
    ⟨_, execFinal_written _ { op := 0x03, len := 0 } [] rfl rfl (by decide) (fun j h => by simp at h)⟩, ⟨_, rfl⟩⟩

/-! The machine -/

/-- A state that meets the invariant with a given idle engine or pending command. -/
theorem inv_idle (len : Byte) (done : Bool) : EngineInv (idle len done []) where
  blkForm := by simp [idle]
  blkBound := by simp [idle]
  busyPend := rfl
  pendLegal := by simp [idle, State.reset]
  pendPhase := by simp [idle, State.reset]
  idleRounds := rfl
  errCause := by simp [idle, State.reset]
  rcNonzero := by simp [idle, State.reset]
  rcAtRest := fun _ => .inl rfl
  varsForm := by simp [idle, State.reset]
theorem inv_pending (op len : Byte) (done : Bool) (n : Nat) (hn : n = 0 ∨ n = 136)
    (hl : Pending.legal { op := op, len := len } = true) (hd : op = 0x02 ∨ op = 0x03 → done = false) :
    EngineInv (pending op len done (blkA n)) where
  blkForm := by
    show (blkA n).wf
    rcases hn with rfl | rfl <;> decide +kernel
  blkBound := by
    show ∀ c ∈ blkA n, c.1 < 136
    rcases hn with rfl | rfl <;> decide +kernel
  busyPend := rfl
  pendLegal := by rintro p h; cases h; exact hl
  pendPhase := by rintro p h; cases h; exact hd
  idleRounds := rfl
  errCause := by simp [pending, State.reset]
  rcNonzero := by simp [pending, State.reset]
  rcAtRest := fun _ => .inl rfl
  varsForm := by simp [pending, State.reset]

theorem witness_StepRunsPendingCommand : Completes (pending 0x04 0 false []) ∧
    Completes ({ pending 0x04 0 false [] with turns := [.engine, .host] }) ∧
    (∃ p, (pending 0x04 0 false []).pend = some p ∧ decode p.op = .ok .permute) :=
  ⟨⟨rfl, .inl rfl⟩, ⟨rfl, .inr ⟨_, rfl⟩⟩, _, rfl, by decide⟩
theorem witness_ResetSetsEveryRegister : ({ pending 0x04 0 true [] with turns := [.reset] }).turns = .reset :: [] ∧
    ∃ u, exec .init ({ pending 0x04 0 true [] with turns := [.reset] }) = .next u := ⟨rfl, _, rfl⟩
theorem witness_EveryStepKeepsInvariant : EngineInv (pending 0x04 0 true (blkA 0)) ∧
    ∃ t, step (pending 0x04 0 true (blkA 0)) = .next t :=
  ⟨inv_pending _ _ _ _ (.inl rfl) (by decide) (by decide), _, rfl⟩
theorem witness_InvariantExcludesBadLatch : EngineInv (pending 0x03 135 false (blkA 136)) :=
  inv_pending _ _ _ _ (.inr rfl) (by decide) (fun _ => rfl)
theorem witness_PendingCommandCompletes : EngineInv (pending 0x02 0 false (blkA 136)) ∧
    Completes (pending 0x02 0 false (blkA 136)) ∧ ∀ j < 136, (pending 0x02 0 false (blkA 136)).blk.read j ≠ none := by
  refine ⟨inv_pending _ _ _ _ (.inr rfl) (by decide) (fun _ => rfl), ⟨rfl, .inl rfl⟩, fun j hj h => ?_⟩
  have := blkA_holds 136 136 (by omega) (pending 0x02 0 false (blkA 136)) rfl j (by simpa using hj)
  rw [h] at this
  cases this
theorem witness_done_set : ∃ t, step (pending 0x03 0 false []) = .next t ∧
    (pending 0x03 0 false []).status.done = false ∧ t.status.done = true :=
  ⟨endCommand (finalEffect [] (pending 0x03 0 false [])),
    execFinal_written (pending 0x03 0 false []) { op := 0x03, len := 0 } [] rfl rfl (by decide)
      (fun j h => by simp at h), rfl, rfl⟩
theorem witness_done_cleared : ∃ t, step (pending 0x01 0 true []) = .next t ∧
    (pending 0x01 0 true []).status.done = true ∧ t.status.done = false := ⟨_, rfl, rfl, rfl⟩
theorem witness_error_stays : ∃ t, step (issue 0x07 (pending 0x04 0 false [])) = .next t ∧
    (issue 0x07 (pending 0x04 0 false [])).status.err = true := ⟨_, rfl, rfl⟩
theorem witness_error_from_cmd_write : ∃ t, step (hostDoing (.wr 0x090 0x05) (idle 0 false [])) = .next t ∧
    (hostDoing (.wr 0x090 0x05) (idle 0 false [])).status.err = false ∧ t.status.err = true := ⟨_, rfl, rfl, rfl⟩
theorem witness_lanes_change : ∃ t, step ({ pending 0x01 0 false [] with lanes := oneLane 3 1 }) = .next t ∧
    t.lanes ≠ ({ pending 0x01 0 false [] with lanes := oneLane 3 1 } : State).lanes :=
  ⟨_, rfl, by decide +kernel⟩
theorem witness_WhileDoneOnlyInitPermuteResetChangeLanes : EngineInv ({ pending 0x01 0 true (blkA 0) with lanes := oneLane 3 1 }) ∧
    ∃ t, step ({ pending 0x01 0 true (blkA 0) with lanes := oneLane 3 1 }) = .next t ∧
      ({ pending 0x01 0 true (blkA 0) with lanes := oneLane 3 1 } : State).status.done = true ∧
      t.lanes ≠ ({ pending 0x01 0 true (blkA 0) with lanes := oneLane 3 1 } : State).lanes := by
  have h := inv_pending 0x01 0 true 0 (.inl rfl) (by decide) (by decide)
  exact ⟨⟨h.1, h.2, h.3, h.4, h.5, h.6, h.7, h.8, h.9, h.10⟩, _, rfl, rfl, by decide +kernel⟩
theorem witness_blk_changes : ∃ t, step (hostDoing (.wr 0x087 0x62) (idle 0 false [])) = .next t ∧
    t.blk.read 0x087 ≠ (hostDoing (.wr 0x087 0x62) (idle 0 false [])).blk.read 0x087 := ⟨_, rfl, by decide⟩
theorem witness_blk_lost_by_reset : ∃ t, step ({ idle 0 false (blkA 1) with turns := [.reset] }) = .next t ∧
    t.blk.read 0 ≠ ({ idle 0 false (blkA 1) with turns := [.reset] } : State).blk.read 0 := ⟨_, rfl, by decide⟩
theorem witness_len_changes : ∃ t, step (hostDoing (.wr 0x091 0xFF) (idle 0 false [])) = .next t ∧
    t.len ≠ (hostDoing (.wr 0x091 0xFF) (idle 0 false [])).len := ⟨_, rfl, by decide⟩
theorem witness_len_cleared_by_reset : ∃ t, step ({ idle 5 false [] with turns := [.reset] }) = .next t ∧
    t.len ≠ ({ idle 5 false [] with turns := [.reset] } : State).len := ⟨_, rfl, by decide⟩
theorem witness_host_statements :
    (hostDoing (.wr 0x091 5) State.reset).turns = .host :: [] ∧
    (hostDoing (.wr 0x091 5) State.reset).host.prog[(hostDoing (.wr 0x091 5) State.reset).host.pos]? = some (.wr 0x091 5) ∧
    (hostDoing (.rd 0x092 1) State.reset).host.prog[(hostDoing (.rd 0x092 1) State.reset).host.pos]? = some (.rd 0x092 1) ∧
    (hostDoing (.label 1) State.reset).host.prog[(hostDoing (.label 1) State.reset).host.pos]? = some (.label 1) :=
  ⟨rfl, rfl, rfl, rfl⟩
theorem witness_host_branch :
    let h : HostAgent := { prog := hostWait 7 1, pos := 2, vars := [(1, 0x05)] }
    h.prog[h.pos]? = some (.bnz 1 0x01 7) ∧ h.vars.read 1 = some 0x05 ∧ (0x05 : Byte) &&& 0x01 ≠ 0 ∧
      (0x04 : Byte) &&& 0x01 = 0 ∧ h.prog[0]? = some (.label 7) ∧ ∀ n < 0, h.prog[n]? ≠ some (.label 7) := by
  refine ⟨rfl, rfl, by decide, by decide, rfl, fun n hn => by omega⟩
theorem witness_bridge_in_range : 504 + (List.replicate 8 (0 : Byte)).length ≤ 512 := by decide

end Sys2Proof.Tests
end

section
/-! SUPPORT. The round constants and the permutation: RC after any number of rounds, and what the sponge keeps of RC. -/
namespace Sys2Proof.Machine

/-- The condition of the advance rule is bit 63 (R68). -/
theorem lfsr_tap_condition_iff (c : Lane) : (c >>> 63) &&& 1 = 1 ↔ 2 ^ 63 ≤ c.toNat := by
  have hc := c.isLt
  rw [← BitVec.toNat_inj, BitVec.toNat_and, BitVec.toNat_ushiftRight, Nat.shiftRight_eq_div_pow]
  rw [show (1 : Lane).toNat = 1 from rfl, Nat.and_one_is_mod]
  omega

/-- With bit 63 clear the advance is a shift (R68). -/
theorem lfsrNext_of_lt (c : Lane) (h : c.toNat < 2 ^ 63) : lfsrNext c = c <<< 1 :=
  if_neg (by rw [lfsr_tap_condition_iff]; omega)

/-- With bit 63 set the tap is XORed in (R68). -/
theorem lfsrNext_of_le (c : Lane) (h : 2 ^ 63 ≤ c.toNat) : lfsrNext c = (c <<< 1) ^^^ rcTap :=
  if_pos ((lfsr_tap_condition_iff c).mpr h)

/-- The advance never reaches 0: a shift that drops no bit keeps a bit, and the tap sets bit 0, which a shift clears
(R68). -/
theorem lfsrNext_ne_zero (c : Lane) (hc : c ≠ 0) : lfsrNext c ≠ 0 := by
  have hpos : c.toNat ≠ 0 := fun h => hc (BitVec.eq_of_toNat_eq h)
  intro h
  rcases Nat.lt_or_ge c.toNat (2 ^ 63) with hlt | hge
  · rw [lfsrNext_of_lt c hlt] at h
    have h0 : c.toNat * 2 % 2 ^ 64 = 0 := by simpa [Nat.shiftLeft_eq] using congrArg BitVec.toNat h
    omega
  · rw [lfsrNext_of_le c hge] at h
    have h0 := congrArg (BitVec.getLsbD · 0) h
    simp [rcTap] at h0

theorem lfsrIter_ne_zero (n : Nat) (c : Lane) (hc : c ≠ 0) : lfsrIter n c ≠ 0 := by
  induction n with
  | zero => exact hc
  | succ n ih => exact lfsrNext_ne_zero _ ih

/-- From the seed the first 64 constants are the powers of two: no bit is shifted out before (R70). -/
theorem lfsrIter_rcSeed (n : Nat) (hn : n < 64) : lfsrIter n rcSeed = BitVec.ofNat 64 (2 ^ n) := by
  induction n with
  | zero => rfl
  | succ n ih =>
    have hlt : 2 ^ n < 2 ^ 63 := Nat.pow_lt_pow_right (by decide) (by omega)
    have hval : (BitVec.ofNat 64 (2 ^ n)).toNat = 2 ^ n := Nat.mod_eq_of_lt (by omega)
    calc lfsrIter (n + 1) rcSeed
        = lfsrNext (BitVec.ofNat 64 (2 ^ n)) := congrArg lfsrNext (ih (by omega))
      _ = BitVec.ofNat 64 (2 ^ n) <<< 1 := lfsrNext_of_lt _ (by omega)
      _ = BitVec.ofNat 64 (2 ^ (n + 1)) := by
        apply BitVec.eq_of_toNat_eq
        rw [BitVec.toNat_shiftLeft, hval, Nat.shiftLeft_eq, BitVec.toNat_ofNat, Nat.pow_one, pow_succ 2 n]

/-- Where RC stands after a permutation from the seed (R70). -/
theorem lfsrIter_rcSeed_24 : lfsrIter 24 rcSeed = 0x0000000001000000 :=
  lfsrIter_rcSeed 24 (by decide)

/-- The round index counts the passes as long as it does not wrap (R23). -/
theorem roundLoop_r (n : Nat) (p : RoundState) (h : p.r.val + n ≤ 24) : (roundLoop n p).r.val = p.r.val + n := by
  induction n with
  | zero => rfl
  | succ n ih =>
    have hr := ih (by omega)
    simp only [roundLoop, loopPass, Fin.val_add, hr]
    omega

/-- A permutation is 24 rounds on the constants from its start value on, and RC stands past the last one (R66, R69). -/
theorem permuteLanes_eq (scope : RcSeedScope) (S : Lanes) (rc : Lane) :
    permuteLanes scope S rc =
      ((List.range 24).foldl (fun T k => oneRound T (lfsrIter k (startRc scope rc))) S,
        lfsrIter 24 (startRc scope rc)) := by
  simp only [permuteLanes, roundLoop_lanes, roundLoop_rc]

theorem permuteLanes_rc (scope : RcSeedScope) (S : Lanes) (rc : Lane) :
    (permuteLanes scope S rc).2 = lfsrIter 24 (startRc scope rc) := by
  rw [permuteLanes_eq]

/-- A value of RC between two commands: never 0, and under PER_PERMUTATION the seed or the value after round 24
(R68, R70). -/
def RestingRc (scope : RcSeedScope) (rc : Lane) : Prop :=
  rc ≠ 0 ∧ (scope = .perPermutation → rc = 0x0000000000000001 ∨ rc = 0x0000000001000000)

theorem restingRc_rcSeed (scope : RcSeedScope) : RestingRc scope rcSeed := ⟨by decide, fun _ => .inl rfl⟩

theorem restingRc_permuteLanes (scope : RcSeedScope) (S : Lanes) (rc : Lane) (h : RestingRc scope rc) :
    RestingRc scope (permuteLanes scope S rc).2 := by
  rw [permuteLanes_rc]
  cases scope with
  | perPermutation =>
    rw [startRc, lfsrIter_rcSeed_24]
    exact ⟨by decide, fun _ => .inr rfl⟩
  | perInit => exact ⟨lfsrIter_ne_zero 24 rc h.1, nofun⟩

theorem restingRc_absorbBlock (scope : RcSeedScope) (q : Lanes × Lane) (b : Block) (h : RestingRc scope q.2) :
    RestingRc scope (absorbBlock scope q b).2 :=
  restingRc_permuteLanes scope _ _ h

theorem restingRc_absorbBlocks (scope : RcSeedScope) (q : Lanes × Lane) (bs : List Block) (h : RestingRc scope q.2) :
    RestingRc scope (absorbBlocks scope q bs).2 := by
  induction bs generalizing q with
  | nil => exact h
  | cons b bs ih => exact ih _ (restingRc_absorbBlock scope q b h)

end Sys2Proof.Machine
end

section
/-! SUPPORT. What a completion answers, and a step of the machine in the terms of the statements. -/
namespace Sys2Proof.Machine

/-- The decoder reads a command from its own byte only (R53, R54). -/
theorem decode_eq_ok_iff (b : Byte) (i : Instr) : decode b = .ok i ↔ b = encode i := by
  constructor
  · intro h
    unfold decode at h
    repeat' split at h
    all_goals cases h
    all_goals assumption
  · rintro rfl
    cases i <;> rfl

/-- A completion that answers a next state is one of these five, and ends the command (R95 to R100). -/
theorem exec_cases (i : Instr) (s t : State) (h : exec i s = .next t) :
    (i = .nop ∧ t = endCommand s) ∨ (i = .init ∧ t = endCommand (initEffect s)) ∨
      (i = .absorb ∧ ∃ bs, s.blk.readRange 0 136 = .ok bs ∧
        t = endCommand (setSponge (absorbBlock s.rcSeedScope (s.lanes, s.rc) (blockAt bs 0)) s)) ∨
      (i = .final ∧ ∃ p bs, s.pend = some p ∧ p.len.toNat ≤ 135 ∧ s.blk.readRange 0 p.len.toNat = .ok bs ∧
        t = endCommand (finalEffect bs s)) ∨
      (i = .permute ∧ t = endCommand (setSponge (permuteLanes s.rcSeedScope s.lanes s.rc) s)) := by
  cases i with
  | nop => exact .inl ⟨rfl, (Host.Outcome.next.inj h).symm⟩
  | init => exact .inr (.inl ⟨rfl, (Host.Outcome.next.inj h).symm⟩)
  | absorb => exact .inr (.inr (.inl ⟨rfl, execAbsorb_cases s t h⟩))
  | final => exact .inr (.inr (.inr (.inl ⟨rfl, execFinal_cases s t h⟩)))
  | permute => exact .inr (.inr (.inr (.inr ⟨rfl, (Host.Outcome.next.inj h).symm⟩)))

/-- What every completion keeps (R25, R26, R95). -/
theorem exec_frame (i : Instr) (s t : State) (h : exec i s = .next t) :
    t.blk = s.blk ∧ t.len = s.len ∧ t.rcSeedScope = s.rcSeedScope ∧ t.host = s.host ∧ t.turns = s.turns ∧
      t.draws = s.draws ∧ t.pend = none ∧ t.status.busy = false := by
  rcases exec_cases i s t h with ⟨-, rfl⟩ | ⟨-, rfl⟩ | ⟨-, bs, -, rfl⟩ | ⟨-, p, bs, -, -, -, rfl⟩ | ⟨-, rfl⟩ <;> simp

/-- NOP alone among the completions leaves the sponge as it is (R96). -/
theorem execNop_sponge (s t : State) (h : exec .nop s = .next t) : t.lanes = s.lanes ∧ t.rc = s.rc := by
  cases h; simp

/-- The round index after a completion: a permutation leaves it at 0 (R23, log entry 7). -/
theorem exec_r (i : Instr) (s t : State) (h : exec i s = .next t) :
    ((i = .nop ∨ i = .init) ∧ t.r = s.r) ∨ (i ≠ .nop ∧ i ≠ .init ∧ t.r = 0) := by
  rcases exec_cases i s t h with ⟨rfl, rfl⟩ | ⟨rfl, rfl⟩ | ⟨rfl, bs, -, rfl⟩ | ⟨rfl, p, bs, -, -, -, rfl⟩ | ⟨rfl, rfl⟩ <;>
    simp

/-- DONE after a completion (R97, R99). -/
theorem exec_done (i : Instr) (s t : State) (h : exec i s = .next t) :
    (i = .init ∧ t.status.done = false) ∨ (i = .final ∧ t.status.done = true) ∨
      (i ≠ .init ∧ i ≠ .final ∧ t.status.done = s.status.done) := by
  rcases exec_cases i s t h with ⟨rfl, rfl⟩ | ⟨rfl, rfl⟩ | ⟨rfl, bs, -, rfl⟩ | ⟨rfl, p, bs, -, -, -, rfl⟩ | ⟨rfl, rfl⟩ <;>
    simp

/-- ERR and ERRCAUSE after a completion: only INIT writes them (R97, R103). -/
theorem exec_error (i : Instr) (s t : State) (h : exec i s = .next t) :
    (i = .init ∧ t.status.err = false ∧ t.errcause = .clear) ∨
      (i ≠ .init ∧ t.status.err = s.status.err ∧ t.errcause = s.errcause) := by
  rcases exec_cases i s t h with ⟨rfl, rfl⟩ | ⟨rfl, rfl⟩ | ⟨rfl, bs, -, rfl⟩ | ⟨rfl, p, bs, -, -, -, rfl⟩ | ⟨rfl, rfl⟩ <;>
    simp

/-- Every completion leaves RC at a resting value (R69, R70). -/
theorem exec_restingRc (i : Instr) (s t : State) (h : exec i s = .next t) (hrc : RestingRc s.rcSeedScope s.rc) :
    RestingRc s.rcSeedScope t.rc := by
  rcases exec_cases i s t h with ⟨-, rfl⟩ | ⟨-, rfl⟩ | ⟨-, bs, -, rfl⟩ | ⟨-, p, bs, -, -, -, rfl⟩ | ⟨-, rfl⟩
  · exact hrc
  · exact restingRc_rcSeed _
  · exact restingRc_absorbBlock _ _ _ hrc
  · exact restingRc_absorbBlocks _ _ _ hrc
  · exact restingRc_permuteLanes _ _ _ hrc

/-- The next step is the host's: its turn, or no turn listed and nothing pending (R91, log entry 2). -/
def HostMoves (s : State) : Prop := (∃ ts, s.turns = .host :: ts) ∨ (s.turns = [] ∧ s.status.busy = false)

/-- Who makes a step that answers a next state, and what that agent does, on the state with the turn taken (R91). -/
theorem step_agents (s t : State) (h : step s = .next t) :
    (Resets s ∧ t = hardwareReset (setTurns s.turns.tail s)) ∨
      (Completes s ∧ ∃ p i, s.pend = some p ∧ p.op = encode i ∧ exec i (setTurns s.turns.tail s) = .next t) ∨
      (s.status.busy = false ∧ (∃ ts, s.turns = .engine :: ts) ∧ t = setTurns s.turns.tail s) ∨
      (HostMoves s ∧ hostStep (setTurns s.turns.tail s) = .next t) := by
  rcases step_cases s t h with ⟨ts, ht, rfl⟩ | ⟨hb, ts, hc, ht⟩ | ⟨hb, ts, ht, rfl⟩ | ⟨ts, hs, ht⟩
  · exact .inl ⟨⟨ts, ht⟩, by rw [ht, List.tail_cons]⟩
  · obtain ⟨p, i, hp, hd, he⟩ := complete_cases _ _ hc
    have hop : p.op = encode i := (decode_eq_ok_iff _ _).mp hd
    rcases ht with ht | ⟨ht, rfl⟩ <;> rw [ht]
    · exact .inr (.inl ⟨⟨hb, .inr ⟨ts, ht⟩⟩, p, i, hp, hop, he⟩)
    · exact .inr (.inl ⟨⟨hb, .inl ht⟩, p, i, hp, hop, he⟩)
  · exact .inr (.inr (.inl ⟨hb, ⟨ts, ht⟩, by rw [ht, List.tail_cons]⟩))
  · rcases ht with ht | ⟨ht, rfl, hb⟩ <;> rw [ht]
    · exact .inr (.inr (.inr ⟨.inl ⟨ts, ht⟩, hs⟩))
    · exact .inr (.inr (.inr ⟨.inr ⟨ht, hb⟩, hs⟩))

/-- No step of the host changes the State (R18). -/
theorem hostStep_lanes (s t : State) (h : hostStep s = .next t) : t.lanes = s.lanes := by
  rcases hostStep_engine s t h with ⟨hl, -⟩ | ⟨a, v, -, hl, -⟩ <;> exact hl

/-- No step of the host changes DONE (R27). -/
theorem hostStep_done (s t : State) (h : hostStep s = .next t) : t.status.done = s.status.done := by
  rcases hostStep_engine s t h with
    ⟨-, -, -, hst, -⟩ | ⟨a, v, -, -, ⟨-, -, -, hst, -⟩ | ⟨-, -, -, hdone, -⟩ | ⟨-, -, -, hst, -⟩⟩
  · rw [hst]
  · rw [hst]
  · exact hdone
  · rw [hst]

/-- What a step of the host does to BLK: nothing, or its write statement stores one byte (R25, R93). -/
theorem hostStep_blk (s t : State) (h : hostStep s = .next t) :
    t.blk = s.blk ∨ ∃ a v, s.host.prog[s.host.pos]? = some (.wr a v) ∧ a.toNat < 0x088 ∧
      t.blk = s.blk.write a.toNat v := by
  rcases hostStep_engine s t h with
    ⟨-, hb, -⟩ | ⟨a, v, hq, -, ⟨ha, hb, -⟩ | ⟨-, hb, -⟩ | ⟨-, hb, -⟩⟩
  · exact .inl hb
  · exact .inr ⟨a, v, hq, ha, hb⟩
  · exact .inl hb
  · exact .inl hb

/-- What a step of the host does to LEN: nothing, or its write statement at 0x091 stores it (R26, R93). -/
theorem hostStep_len (s t : State) (h : hostStep s = .next t) :
    t.len = s.len ∨ ∃ v, s.host.prog[s.host.pos]? = some (.wr 0x091 v) ∧ t.len = v := by
  rcases hostStep_engine s t h with
    ⟨-, -, hl, -⟩ | ⟨a, v, hq, -, ⟨-, -, hl, -⟩ | ⟨-, -, hl, -⟩ | ⟨ha, -, hl, -⟩⟩
  · exact .inl hl
  · exact .inl hl
  · exact .inl hl
  · obtain rfl := (portAddr_eq_iff a 0x091 (by decide)).mpr ha
    exact .inr ⟨v, hq, hl⟩

end Sys2Proof.Machine
end

section
/-! SUPPORT. The invariant of the machine: every operation keeps it, one lemma each. -/
namespace Sys2Proof.Machine

theorem EngineInv.restingRc {s : State} (h : EngineInv s) : RestingRc s.rcSeedScope s.rc := ⟨h.rcNonzero, h.rcAtRest⟩

/-- The invariant speaks of BLK, STATUS, the latch, r, the cause, RC with its parameter, and the host's variables. -/
theorem engineInv_congr {s t : State} (h : EngineInv s) (hblk : t.blk = s.blk) (hstatus : t.status = s.status)
    (hpend : t.pend = s.pend) (hr : t.r = s.r) (hcause : t.errcause = s.errcause) (hrc : t.rc = s.rc)
    (hscope : t.rcSeedScope = s.rcSeedScope) (hvars : t.host.vars = s.host.vars) : EngineInv t where
  blkForm := hblk ▸ h.blkForm
  blkBound := hblk ▸ h.blkBound
  busyPend := by rw [hstatus, hpend]; exact h.busyPend
  pendLegal := hpend ▸ h.pendLegal
  pendPhase := by rw [hstatus, hpend]; exact h.pendPhase
  idleRounds := hr ▸ h.idleRounds
  errCause := by rw [hstatus, hcause]; exact h.errCause
  rcNonzero := hrc ▸ h.rcNonzero
  rcAtRest := by rw [hscope, hrc]; exact h.rcAtRest
  varsForm := hvars ▸ h.varsForm

theorem engineInv_setTurns (ts : List Turn) (s : State) (h : EngineInv s) : EngineInv (setTurns ts s) :=
  engineInv_congr h rfl rfl rfl rfl rfl rfl rfl rfl

theorem engineInv_setLen (v : Byte) (s : State) (h : EngineInv s) : EngineInv (setLen v s) :=
  engineInv_congr h rfl rfl rfl rfl rfl rfl rfl rfl

theorem engineInv_hostGoto (k : Nat) (s : State) (h : EngineInv s) : EngineInv (hostGoto k s) :=
  engineInv_congr h rfl rfl rfl rfl rfl rfl rfl rfl

theorem engineInv_countDraw (a : PortAddr) (s : State) (h : EngineInv s) : EngineInv (countDraw a s) :=
  engineInv_congr h (by simp) (by simp) (by simp) (by simp) (by simp) (by simp) (by simp) (by simp)

theorem engineInv_hostSetVar (x : Nat) (b : Byte) (s : State) (h : EngineInv s) : EngineInv (hostSetVar x b s) :=
  { h with varsForm := Memory.wf_write _ _ _ h.varsForm }

/-- A write inside `BLK[0..136)` keeps the form and the bound (R25). -/
theorem engineInv_writeBlk (j : Nat) (v : Byte) (s : State) (hj : j < 136) (h : EngineInv s) :
    EngineInv (writeBlk j v s) :=
  { h with
    blkForm := Memory.wf_write _ _ _ h.blkForm
    blkBound := Memory.bound_write _ _ _ _ h.blkBound hj }

/-- Recording an error gives ERR a cause, the old one or the new one (R103). -/
theorem engineInv_raiseError (c : ErrCause) (s : State) (hc : c ≠ .clear) (h : EngineInv s) :
    EngineInv (raiseError c s) := by
  cases herr : s.status.err with
  | true => rwa [raiseError, if_pos herr]
  | false =>
    rw [raiseError, if_neg (by simp [herr])]
    exact { h with errCause := by simp [hc] }

/-- A command that passed issue's checks is latched legally and in its phase (R94). -/
theorem engineInv_latchCommand (v : Byte) (s : State) (hv : issueError v s = none) (h : EngineInv s) :
    EngineInv (latchCommand v s) := by
  obtain ⟨-, hop, hlen, hphase⟩ := issueError_none v s hv
  have hlegal : Pending.legal { op := v, len := s.len } = true := by
    simpa [Pending.legal, hop, ← imp_iff_not_or] using hlen
  exact { h with
    busyPend := rfl
    pendLegal := by rintro p ⟨⟩; exact hlegal
    pendPhase := by rintro p ⟨⟩; exact hphase }

theorem engineInv_issue (v : Byte) (s : State) (h : EngineInv s) : EngineInv (issue v s) := by
  rcases issue_cases v s with ⟨c, hc, heq⟩ | ⟨hnone, heq⟩ <;> rw [heq]
  · exact engineInv_raiseError c s (issueError_some v s c hc) h
  · exact engineInv_latchCommand v s hnone h

theorem engineInv_memWrite (a : PortAddr) (v : Byte) (s t : State) (h : EngineInv s)
    (hw : memWrite a v s = .next t) : EngineInv t := by
  rcases memWrite_cases a v s t hw with ⟨ha, -, rfl⟩ | ⟨-, rfl⟩ | ⟨-, rfl⟩ | ⟨-, -, -, rfl⟩
  · exact engineInv_writeBlk _ _ _ ha h
  · exact engineInv_issue v s h
  · exact engineInv_setLen v s h
  · exact h

theorem engineInv_hostStep (s t : State) (h : EngineInv s) (hs : hostStep s = .next t) : EngineInv t := by
  rcases hostStep_cases s t hs with ⟨-, rfl⟩ | ⟨a, v, -, hw⟩ | ⟨a, x, b, -, -, rfl⟩ | ⟨k, rfl⟩
  · exact h
  · exact engineInv_memWrite a v _ t (engineInv_hostGoto _ _ h) hw
  · exact engineInv_hostGoto _ _ (engineInv_hostSetVar _ _ _ (engineInv_countDraw _ _ h))
  · exact engineInv_hostGoto _ _ h

/-- A completion empties the latch, so what it writes of DONE cannot break the phase of a pending command (R95). -/
theorem engineInv_exec (i : Instr) (s t : State) (h : EngineInv s) (he : exec i s = .next t) : EngineInv t := by
  obtain ⟨hblk, -, hscope, hhost, -, -, hpend, hbusy⟩ := exec_frame i s t he
  obtain ⟨hrc, hrest⟩ := hscope ▸ exec_restingRc i s t he h.restingRc
  exact {
    blkForm := hblk ▸ h.blkForm
    blkBound := hblk ▸ h.blkBound
    busyPend := by rw [hbusy, hpend]; rfl
    pendLegal := by simp [hpend]
    pendPhase := by simp [hpend]
    idleRounds := by
      rcases exec_r i s t he with ⟨-, hr⟩ | ⟨-, -, hr⟩
      · rw [hr, h.idleRounds]
      · exact hr
    errCause := by
      rcases exec_error i s t he with ⟨-, herr, hcause⟩ | ⟨-, herr, hcause⟩
      · simp [herr, hcause]
      · rw [herr, hcause]; exact h.errCause
    rcNonzero := hrc
    rcAtRest := hrest
    varsForm := hhost ▸ h.varsForm }

/-- Reset meets the invariant from any state whose host is in form: it leaves nothing else of the old state (R116). -/
theorem engineInv_hardwareReset (s : State) (hvars : s.host.vars.wf) : EngineInv (hardwareReset s) where
  blkForm := .nil
  blkBound := by simp
  busyPend := rfl
  pendLegal := by simp
  pendPhase := by simp
  idleRounds := rfl
  errCause := by simp
  rcNonzero := (restingRc_rcSeed s.rcSeedScope).1
  rcAtRest := (restingRc_rcSeed s.rcSeedScope).2
  varsForm := hvars

end Sys2Proof.Machine
end

section
/-! The statements about the state, its invariant and what writes each register. -/
namespace Sys2Proof.Machine

/-- Settles O40: the host's statement, the completion and reset each keep the invariant. -/
theorem everyStepKeepsInvariant : Obligations.EveryStepKeepsInvariant := by
  intro s t h hs
  rcases step_agents s t hs with ⟨-, rfl⟩ | ⟨-, p, i, -, -, he⟩ | ⟨-, -, rfl⟩ | ⟨-, hh⟩
  · exact engineInv_hardwareReset _ h.varsForm
  · exact engineInv_exec i _ t (engineInv_setTurns _ s h) he
  · exact engineInv_setTurns _ s h
  · exact engineInv_hostStep _ t (engineInv_setTurns _ s h) hh

/-- Settles O10: both seedings are the one round loop from their start value, and from the seed no tap is taken. -/
theorem permutationRunsTwentyFourRounds : Obligations.PermutationRunsTwentyFourRounds := by
  intro S rc
  refine ⟨?_, permuteLanes_eq .perInit S rc, fun k hk => ?_⟩
  · have hpow : ∀ k ∈ List.range 24, lfsrIter k rcSeed = BitVec.ofNat 64 (2 ^ k) := fun k hk =>
      lfsrIter_rcSeed k ((List.mem_range.mp hk).trans (by decide))
    rw [permuteLanes_eq, startRc, lfsrIter_rcSeed_24, rounds_congr _ _ _ hpow]
  · simpa using roundLoop_r k { lanes := S, rc := rc, r := 0 } (by simpa using hk)

/-- Settles O25: a BLK address leaves only the store among the cases of a port write. -/
theorem blkWriteStoresOneByte : Obligations.BlkWriteStoresOneByte := by
  intro a v s t ha hw
  rcases memWrite_cases a v s t hw with ⟨-, -, rfl⟩ | ⟨hcmd, -⟩ | ⟨hlen, -⟩ | ⟨hother, -⟩
  · exact ⟨Memory.read_write_same _ _ _, fun x hx => Memory.read_write_other _ _ _ _ hx,
      Memory.wf_write _ _ _, rfl⟩
  · omega
  · omega
  · omega

/-- Settles O35: assembled from what the five completions do to each group of fields. -/
theorem completionFrame : Obligations.CompletionFrame := by
  intro i s t h
  obtain ⟨hblk, hlen, hscope, hhost, hturns, hdraws, hpend, hbusy⟩ := exec_frame i s t h
  have hr := exec_r i s t h
  have hdone := exec_done i s t h
  have herr := exec_error i s t h
  refine ⟨fun a => by rw [hblk], hblk, hlen, hscope, hhost, hturns, hdraws, hpend, hbusy, ?_, ?_, ?_, ?_, ?_⟩
  · rintro rfl; exact execNop_sponge s t h
  · tauto
  · tauto
  · tauto
  · tauto

/-- Settles O43: the host and an idle engine's turn keep DONE, and of the completions only INIT and FINAL write it. -/
theorem doneChangesOnlyByFinalInitReset : Obligations.DoneChangesOnlyByFinalInitReset := by
  intro s t h
  by_cases hsame : t.status.done = s.status.done
  · rw [hsame]
    exact ⟨fun h0 h1 => absurd (h0.symm.trans h1) nofun, fun h1 h0 => absurd (h1.symm.trans h0) nofun⟩
  · rcases step_agents s t h with ⟨hres, rfl⟩ | ⟨hc, p, i, hp, hop, he⟩ | ⟨-, -, rfl⟩ | ⟨-, hh⟩
    · exact ⟨by simp, fun _ _ => .inl hres⟩
    · rcases exec_done i _ t he with ⟨rfl, hd⟩ | ⟨rfl, hd⟩ | ⟨-, -, hd⟩
      · exact ⟨by simp [hd], fun _ _ => .inr ⟨hc, p, hp, hop⟩⟩
      · exact ⟨fun _ _ => ⟨hc, p, hp, hop⟩, by simp [hd]⟩
      · exact absurd hd hsame
    · exact absurd rfl hsame
    · exact absurd (hostStep_done _ t hh) hsame

/-- Settles O46: the host and an idle engine's turn keep S, and NOP is the one completion that does. -/
theorem lanesChangeOnlyByCommands : Obligations.LanesChangeOnlyByCommands := by
  intro s t h hne
  rcases step_agents s t h with ⟨hres, -⟩ | ⟨hc, p, i, hp, hop, he⟩ | ⟨-, -, rfl⟩ | ⟨-, hh⟩
  · exact .inl hres
  · refine .inr ⟨hc, p, hp, ?_⟩
    cases i with
    | nop =>
      obtain ⟨hlanes, -⟩ := execNop_sponge _ t he
      exact absurd hlanes hne
    | init => exact .inl hop
    | absorb => exact .inr (.inl hop)
    | final => exact .inr (.inr (.inl hop))
    | permute => exact .inr (.inr (.inr hop))
  · exact absurd rfl hne
  · exact absurd (hostStep_lanes _ t hh) hne

/-- Settles O48: completions keep BLK, reset empties it, and a host write reaches its own address only. -/
theorem blkChangesOnlyByHostOrReset : Obligations.BlkChangesOnlyByHostOrReset := by
  intro s t j h hne
  rcases step_agents s t h with ⟨hres, rfl⟩ | ⟨-, p, i, -, -, he⟩ | ⟨-, -, rfl⟩ | ⟨hmoves, hh⟩
  · exact .inl ⟨hres, rfl⟩
  · obtain ⟨hblk, -⟩ := exec_frame i _ t he
    exact absurd (congrArg (Memory.read · j) hblk) hne
  · exact absurd rfl hne
  · rcases hostStep_blk _ t hh with hb | ⟨a, v, hq, ha, hb⟩
    · exact absurd (congrArg (Memory.read · j) hb) hne
    · rw [hb] at hne ⊢
      obtain rfl : a.toNat = j := by
        by_contra hj
        exact hne (Memory.read_write_other _ _ _ _ (Ne.symm hj))
      exact .inr ⟨a, v, ⟨hmoves, hq⟩, rfl, by omega, Memory.read_write_same _ _ _⟩

/-- Settles O49: completions keep LEN, reset clears it, and of the host's writes only the one at 0x091 stores it. -/
theorem lenChangesOnlyByHostOrReset : Obligations.LenChangesOnlyByHostOrReset := by
  intro s t h hne
  rcases step_agents s t h with ⟨hres, rfl⟩ | ⟨-, p, i, -, -, he⟩ | ⟨-, -, rfl⟩ | ⟨hmoves, hh⟩
  · exact .inl ⟨hres, rfl⟩
  · obtain ⟨-, hlen, -⟩ := exec_frame i _ t he
    exact absurd hlen hne
  · exact absurd rfl hne
  · rcases hostStep_len _ t hh with hl | ⟨v, hq, hl⟩
    · exact absurd hl hne
    · exact .inr ⟨v, ⟨hmoves, hq⟩, hl⟩

/-- Settles O39: the reset state is what hardware reset leaves of it. -/
theorem resetStateMeetsInvariant : Obligations.ResetStateMeetsInvariant :=
  ⟨engineInv_hardwareReset State.reset .nil, rfl, rfl, rfl, fun _ => rfl, rfl, rfl, rfl, rfl⟩

end Sys2Proof.Machine
end

section
/-! SUPPORT. Eight bytes and their lane, the host's read, and the bridge's addresses. -/
namespace Sys2Proof.Machine

/-- The word of eight bytes and the lane of them are one number (R39, R88). -/
theorem hostWord_eq_laneOfBytes (b : Fin 8 → Byte) :
    hostWord [b 0, b 1, b 2, b 3, b 4, b 5, b 6, b 7] = (laneOfBytes b).toNat := by
  simp [hostWord, laneOfBytes_toNat]

/-- Byte k of a host word is byte k of the sequence: dividing by 256 drops the lowest byte (R39). -/
theorem hostWord_byte (bs : List Byte) (k : Nat) (hk : k < bs.length) :
    hostWord bs / 2 ^ (8 * k) % 256 = bs[k].toNat := by
  induction bs generalizing k with
  | nil => simp at hk
  | cons b bs ih =>
    have hb := b.isLt
    cases k with
    | zero =>
      rw [hostWord, List.getElem_cons_zero]
      omega
    | succ k =>
      have hdiv : (b.toNat + 256 * hostWord bs) / 256 = hostWord bs := by omega
      rw [hostWord, List.getElem_cons_succ, Nat.mul_succ, Nat.pow_add', ← Nat.div_div_eq_div_mul, hdiv,
        ih k (by simpa using hk)]

/-- Byte k of the lane of eight bytes is the k-th of them (R88, R89). -/
theorem byteOfLane_laneOfBytes (b : Fin 8 → Byte) (k : Fin 8) : byteOfLane (laneOfBytes b) k.val = b k := by
  apply BitVec.eq_of_toNat_eq
  have hlist : [b 0, b 1, b 2, b 3, b 4, b 5, b 6, b 7] = List.ofFn b := rfl
  rw [byteOfLane_toNat, ← hostWord_eq_laneOfBytes, hlist, hostWord_byte _ _ (by simp), List.getElem_ofFn]

/-- Bit t of byte k is bit 8k + t of the lane of the eight bytes (R38, R88). -/
theorem laneOfBytes_bit (b : Fin 8 → Byte) (k : Fin 8) (t : Nat) (ht : t < 8) :
    (laneOfBytes b).getLsbD (8 * k.val + t) = (b k).getLsbD t := by
  rw [← byteOfLane_bit _ _ _ ht, byteOfLane_laneOfBytes]

/-- A lane of the codec's result is the lane of its eight bytes (R88). -/
theorem bytesToLanes_lane {n : Nat} (b : Vector Byte (8 * n)) (j : Fin n) :
    (bytesToLanes b)[j] = laneOfBytes fun k : Fin 8 => b[8 * j.val + k.val] := by
  simp only [bytesToLanes, Fin.getElem_fin, Vector.getElem_ofFn]

/-- Byte 8j + k of the codec's result is byte k of lane j (R89). -/
theorem lanesToBytes_byte {n : Nat} (l : Vector Lane n) (j : Fin n) (k : Fin 8) :
    (lanesToBytes l)[8 * j.val + k.val] = byteOfLane l[j] k.val := by
  have hdiv : (8 * j.val + k.val) / 8 = j.val := by omega
  have hmod : (8 * j.val + k.val) % 8 = k.val := by omega
  simp only [lanesToBytes, Vector.getElem_ofFn, hdiv, hmod, Fin.getElem_fin]

/-- A host read of an address that returns a byte (R56). -/
theorem hostRead_ok (a : PortAddr) (x : Nat) (s : State) (b : Byte) (h : memRead a s = .ok b) :
    hostRead a x s = .next (hostAdvance (hostSetVar x b (countDraw a s))) := by
  rw [hostRead, h]

/-- A host read of an address whose read faults (R56). -/
theorem hostRead_error (a : PortAddr) (x : Nat) (s : State) (f : Fault) (h : memRead a s = .error f) :
    hostRead a x s = .fault f := by
  rw [hostRead, h]

/-- Inside the port, a bus address is its offset from ENGINE_BASE (R10). -/
theorem busToPort_add (base o : Nat) (ho : o < 512) : busToPort base (base + o) = some (BitVec.ofNat 9 o) := by
  rw [busToPort, if_pos (by omega), Nat.add_sub_cancel_left]

end Sys2Proof.Machine
end

section
/-! The statements about the memory map's bytes: the codec, the bus bridge, and the host's read. -/
namespace Sys2Proof.Machine

/-- Settles O16: each direction of the codec reduces to the bits of one lane and one byte of it. -/
theorem codecIsLittleEndian : Obligations.CodecIsLittleEndian := by
  intro n b l j k t ht
  constructor
  · rw [bytesToLanes_lane, laneOfBytes_bit _ k t ht]
  · rw [lanesToBytes_byte, byteOfLane_bit _ _ _ ht]

/-- Settles O51: every byte of the write lies in the port, so the bridge drops none; by induction on the bytes. -/
theorem bridgeSplitsAscending : Obligations.BridgeSplitsAscending := by
  refine ⟨fun base o bs hbs => ?_, hostWord_eq_laneOfBytes⟩
  induction bs generalizing o with
  | nil => rfl
  | cons b bs ih =>
    rw [List.length_cons] at hbs
    simp only [bridgeWrite, busToPort_add base o (by omega), hostLdblk]
    rw [Nat.add_assoc, ih (o + 1) (by omega)]

/-- Settles O23: the answered state is known by `hostRead_ok`, and its three updates touch the host's variable and
position and the draw count only. -/
theorem hostReadHasNoSideEffect : Obligations.HostReadHasNoSideEffect := by
  intro a x s
  refine ⟨fun b hb => ⟨_, hostRead_ok a x s b hb, ?_⟩, hostRead_error a x s⟩
  simpa [Memory.read_write_same] using fun y hy => Memory.read_write_other s.host.vars x y b hy

end Sys2Proof.Machine
end

section
/-! SUPPORT. The command byte and issue's checks on it, and the host's turn, one lemma per statement. -/
namespace Sys2Proof.Machine

theorem decode_encode (i : Instr) : decode (encode i) = .ok i := (decode_eq_ok_iff _ i).mpr rfl

/-- Two commands with one byte are one command, since the byte decodes to both. -/
theorem encode_inj (i j : Instr) : encode i = encode j ↔ i = j := by
  rw [← decode_eq_ok_iff, decode_encode, Except.ok.injEq]

/-- The encodings are the bytes up to 0x04 (R53). -/
theorem exists_eq_encode_iff (b : Byte) : (∃ i, b = encode i) ↔ b.toNat ≤ 0x04 := by
  constructor
  · rintro ⟨i, rfl⟩
    cases i <;> decide
  · intro h
    interval_cases hb : b.toNat
    · exact ⟨.nop, BitVec.eq_of_toNat_eq hb⟩
    · exact ⟨.init, BitVec.eq_of_toNat_eq hb⟩
    · exact ⟨.absorb, BitVec.eq_of_toNat_eq hb⟩
    · exact ⟨.final, BitVec.eq_of_toNat_eq hb⟩
    · exact ⟨.permute, BitVec.eq_of_toNat_eq hb⟩

/-- The decoder's one error names the byte itself (R54). -/
theorem decode_error (b : Byte) (e : DecodeError) (h : decode b = .error e) : e = .illegalOpcode b := by
  unfold decode at h
  repeat' split at h
  all_goals cases h
  rfl

/-- The illegal bytes are those above 0x04 (R53, R54). -/
theorem decode_illegal_iff (b : Byte) : decode b = .error (.illegalOpcode b) ↔ 0x04 < b.toNat := by
  rw [← not_le, ← exists_eq_encode_iff]
  constructor
  · rintro h ⟨i, rfl⟩
    rw [decode_encode] at h
    cases h
  · intro h
    cases hd : decode b with
    | ok i => exact absurd ⟨i, (decode_eq_ok_iff b i).mp hd⟩ h
    | error e => rw [decode_error b e hd]

/-- LEN is checked for FINAL only (R51, R54). -/
theorem operandOk_iff (i : Instr) (len : Byte) : i.operandOk len = true ↔ (i = .final → len.toNat ≤ 135) := by
  cases i <;> simp [Instr.operandOk]

/-- While idle, what `issueError_none` says of a byte that passes is also enough to pass (R94). -/
theorem issueError_eq_none_iff (v : Byte) (s : State) (hidle : s.status.busy = false) :
    issueError v s = none ↔
      v.toNat ≤ 0x04 ∧ (v = 0x03 → s.len.toNat ≤ 135) ∧ (v = 0x02 ∨ v = 0x03 → s.status.done = false) := by
  constructor
  · intro h
    obtain ⟨-, hchecks⟩ := issueError_none v s h
    exact hchecks
  · rintro ⟨hop, hlen, hphase⟩
    rw [issueError, if_neg (by simp [hidle]), if_neg (by omega), if_neg, if_neg]
    · rintro ⟨hv, hdone⟩
      simp [hphase hv] at hdone
    · rintro ⟨hv, hlong⟩
      exact absurd (hlen hv) (by omega)

/-- While idle, a command's byte passes exactly if LEN is legal for the command and the phase allows it (R54, R94). -/
theorem issueError_encode_eq_none_iff (i : Instr) (s : State) (hidle : s.status.busy = false) :
    issueError (encode i) s = none ↔
      i.operandOk s.len = true ∧ (i = .absorb ∨ i = .final → s.status.done = false) := by
  have hop : (encode i).toNat ≤ 0x04 := (exists_eq_encode_iff _).mp ⟨i, rfl⟩
  have habsorb : encode i = 0x02 ↔ i = .absorb := encode_inj i .absorb
  have hfinal : encode i = 0x03 ↔ i = .final := encode_inj i .final
  rw [issueError_eq_none_iff _ s hidle, operandOk_iff, habsorb, hfinal]
  exact and_iff_right hop

/-- While idle, issue sets BUSY exactly if no check fails: a recorded error leaves it clear (R94, R103). -/
theorem issue_busy_iff (v : Byte) (s : State) (hidle : s.status.busy = false) :
    (issue v s).status.busy = true ↔ issueError v s = none := by
  rcases issue_cases v s with ⟨c, herr, hissue⟩ | ⟨hnone, hissue⟩
  · simp [hissue, herr, hidle]
  · simp [hissue, hnone]

/-- The host's turn is its next statement, with the turn taken (R45, R91). -/
theorem step_of_host_turn (s : State) (ts : List Turn) (h : s.turns = .host :: ts) :
    step s = hostStep (setTurns ts s) := by
  rw [step, h]

theorem hostStep_wr (a : PortAddr) (v : Byte) (s : State) (h : s.host.prog[s.host.pos]? = some (.wr a v)) :
    hostStep s = memWrite a v (hostAdvance s) := by
  rw [hostStep, h]

theorem hostStep_rd (a : PortAddr) (x : Nat) (s : State) (h : s.host.prog[s.host.pos]? = some (.rd a x)) :
    hostStep s = hostRead a x s := by
  rw [hostStep, h]

theorem hostStep_label (l : Nat) (s : State) (h : s.host.prog[s.host.pos]? = some (.label l)) :
    hostStep s = .next (hostAdvance s) := by
  rw [hostStep, h]

theorem hostStep_bnz (x : Nat) (m : Byte) (l : Nat) (s : State)
    (h : s.host.prog[s.host.pos]? = some (.bnz x m l)) : hostStep s = hostBranch x m l s := by
  rw [hostStep, h]

/-- A branch whose masked variable is zero falls through (R56). -/
theorem hostBranch_not_taken (x : Nat) (m : Byte) (l : Nat) (b : Byte) (s : State)
    (hx : s.host.vars.read x = some b) (hb : b &&& m = 0) : hostBranch x m l s = .next (hostAdvance s) := by
  simp only [hostBranch, hx, hb, if_true]

/-- A branch whose masked variable is not zero goes to its label's position (R56). -/
theorem hostBranch_taken (x : Nat) (m : Byte) (l : Nat) (b : Byte) (k : Nat) (s : State)
    (hx : s.host.vars.read x = some b) (hb : b &&& m ≠ 0) (hl : labelPos s.host.prog l = some k) :
    hostBranch x m l s = .next (hostGoto k s) := by
  simp only [hostBranch, hx, hb, hl, if_false]

/-- A statement that is not the label is passed over. -/
theorem labelPos_cons_of_ne (q : HostStmt) (rest : List HostStmt) (l : Nat) (h : q ≠ .label l) :
    labelPos (q :: rest) l = (labelPos rest l).map (· + 1) := by
  cases q with
  | label k => exact if_neg fun hk => h (congrArg HostStmt.label hk)
  | wr a v => rfl
  | rd a x => rfl
  | bnz x m k => rfl

/-- The position of the first statement that is the label (log entry 10). -/
theorem labelPos_of_first (prog : List HostStmt) (l k : Nat) (hk : prog[k]? = some (.label l))
    (hfirst : ∀ n < k, prog[n]? ≠ some (.label l)) : labelPos prog l = some k := by
  induction prog generalizing k with
  | nil => simp at hk
  | cons q rest ih =>
    cases k with
    | zero =>
      obtain rfl : q = .label l := by simpa using hk
      exact if_pos rfl
    | succ k =>
      have hq : q ≠ .label l := by simpa using hfirst 0 (Nat.succ_pos k)
      have hrest : labelPos rest l = some k :=
        ih k (by simpa using hk) fun n hn => by simpa using hfirst (n + 1) (Nat.succ_lt_succ hn)
      rw [labelPos_cons_of_ne q rest l hq, hrest, Option.map_some]

end Sys2Proof.Machine
end

section
/-! The statements about the command byte, its issue, and the host's statements. -/
namespace Sys2Proof.Machine

/-- Settles O28: BUSY is set exactly if every check passes, and the bytes that can pass are the encodings. -/
theorem issueAcceptsExactlyLegalCommands : Obligations.IssueAcceptsExactlyLegalCommands := by
  intro v s hidle
  rw [issue_busy_iff v s hidle]
  constructor
  · intro hnone
    obtain ⟨-, hop, -⟩ := issueError_none v s hnone
    obtain ⟨i, rfl⟩ := (exists_eq_encode_iff v).mpr hop
    exact ⟨i, decode_encode i, (issueError_encode_eq_none_iff i s hidle).mp hnone⟩
  · rintro ⟨i, hdecode, hlegal⟩
    obtain rfl := (decode_eq_ok_iff v i).mp hdecode
    exact (issueError_encode_eq_none_iff i s hidle).mpr hlegal

/-- Settles O50: one rule per statement of the host, and a taken branch's target is found by `labelPos_of_first`. -/
theorem hostStatementsRun : Obligations.HostStatementsRun := by
  intro s ts hturn
  rw [step_of_host_turn s ts hturn]
  refine ⟨fun a v hq => hostStep_wr a v _ hq, fun a x hq => hostStep_rd a x _ hq,
    fun l hq => hostStep_label l _ hq, fun x m l b hq hx => ?_⟩
  rw [hostStep_bnz x m l (setTurns ts s) hq]
  exact ⟨fun hzero => hostBranch_not_taken x m l b _ hx hzero,
    fun hne k hk hfirst => hostBranch_taken x m l b k _ hx hne (labelPos_of_first _ l k hk hfirst)⟩

/-- Settles O1: each pattern is a command's encoding, and above 0x04 there is none. -/
theorem commandBytesDecode : Obligations.CommandBytesDecode :=
  ⟨decode_encode .nop, decode_encode .init, decode_encode .absorb, decode_encode .final, decode_encode .permute,
    fun b hb => (decode_illegal_iff b).mpr hb⟩

/-- Settles O2: the decoder inverts the encoder, whose values are the bytes up to 0x04. -/
theorem everyOtherByteIsIllegal : Obligations.EveryOtherByteIsIllegal := by
  intro b
  refine ⟨decode_eq_ok_iff b, ?_, (decode_illegal_iff b).symm⟩
  simp only [decode_eq_ok_iff, exists_eq_encode_iff]

end Sys2Proof.Machine
end

section
/-! SUPPORT. The five round steps lane by lane, the bits of a rotation, and the States that each step fixes. -/
namespace Sys2Proof.Machine

theorem lanes_ext (S T : Lanes) (h : ∀ i : Fin 25, S[i] = T[i]) : S = T :=
  Vector.ext fun i hi => h ⟨i, hi⟩

theorem replicate_lane (v : Lane) (i : Fin 25) : (Vector.replicate 25 v)[i] = v :=
  Vector.getElem_replicate i.isLt

/-- A lane by its coordinates is the lane at its linear index (R17). -/
theorem lane_laneIdx (S : Lanes) (x y : Fin 5) : S[laneIdx x y] = S.toList.getD (5 * y.val + x.val) 0 :=
  (lanes_getD S (laneIdx x y)).symm

/-! Rotation -/

theorem rotateRight_zero (v : Lane) : rotateRight v 0 = v := if_pos rfl

theorem rotateRight_of_pos (v : Lane) (n : Fin 64) (hn : 1 ≤ n.val) :
    rotateRight v n = (v >>> n.val) ||| (v <<< (64 - n.val)) :=
  if_neg (by omega)

/-- Below bit 64 - n the right shift gives the bit, and above it the left shift does (R58). -/
theorem rotateRight_bit (v : Lane) (n : Fin 64) (b : Nat) (hb : b < 64) :
    (rotateRight v n).getLsbD b = v.getLsbD ((b + n.val) % 64) := by
  have hn := n.isLt
  by_cases h0 : n.val = 0
  · obtain rfl : n = 0 := Fin.ext h0
    rw [rotateRight_zero, Fin.val_zero, Nat.add_zero, Nat.mod_eq_of_lt hb]
  · rw [rotateRight_of_pos v n (by omega), BitVec.getLsbD_or, BitVec.getLsbD_ushiftRight, BitVec.getLsbD_shiftLeft]
    by_cases hlow : b + n.val < 64
    · have hleft : b < 64 - n.val := by omega
      have hmod : (b + n.val) % 64 = n.val + b := by omega
      simp [hleft, hmod]
    · have hleft : ¬ b < 64 - n.val := by omega
      have hmod : (b + n.val) % 64 = b - (64 - n.val) := by omega
      have hright : v.getLsbD (n.val + b) = false := BitVec.getLsbD_of_ge v _ (by omega)
      simp [hleft, hmod, hright, hb]

/-- A rotation fixes a lane whose bits are all the same. -/
theorem rotateRight_of_const_bits (v : Lane) (c : Bool) (h : ∀ b < 64, v.getLsbD b = c) (n : Fin 64) :
    rotateRight v n = v := by
  apply BitVec.eq_of_getLsbD_eq
  intro b hb
  rw [rotateRight_bit v n b hb, h b hb, h _ (Nat.mod_lt _ (by decide))]

theorem rotateRight_zeros (n : Fin 64) : rotateRight 0 n = 0 :=
  rotateRight_of_const_bits 0 false (by simp) n

theorem rotateRight_ones (n : Fin 64) : rotateRight 0xFFFFFFFFFFFFFFFF n = 0xFFFFFFFFFFFFFFFF :=
  rotateRight_of_const_bits _ true (by decide) n

/-! The steps, lane by lane -/

theorem thetaStep_lane (S : Lanes) (i : Fin 25) : (thetaStep S)[i] = S[i] ^^^ diffusion S (laneY i) :=
  Vector.getElem_ofFn i.isLt

theorem rhoStep_lane (S : Lanes) (i : Fin 25) : (rhoStep S)[i] = rotateRight S[i] shiftTable[i] :=
  Vector.getElem_ofFn i.isLt

theorem piStep_lane (S : Lanes) (i : Fin 25) : (piStep S)[i] = S[piSource i] :=
  Vector.getElem_ofFn i.isLt

theorem chiStep_lane (S : Lanes) (i : Fin 25) :
    (chiStep S)[i] =
      S[i] ^^^ (~~~ S[laneIdx (laneX i + 1) (laneY i)] &&& S[laneIdx (laneX i + 2) (laneY i)]) :=
  Vector.getElem_ofFn i.isLt

theorem iotaStep_lane_zero (S : Lanes) (rc : Lane) : (iotaStep S rc)[0] = S[0] ^^^ rc :=
  Vector.getElem_ofFn (by decide)

theorem iotaStep_lane_of_ne (S : Lanes) (rc : Lane) (i : Fin 25) (hi : i ≠ 0) : (iotaStep S rc)[i] = S[i] := by
  have hval : i.val ≠ 0 := fun h => hi (Fin.ext h)
  exact (Vector.getElem_ofFn i.isLt).trans (if_neg hval)

/-- The parity of a column-group from the State's list of lanes (R60). -/
theorem groupParity_eq (S : Lanes) (g : Fin 5) :
    groupParity S g = S.toList.getD (5 * g.val) 0 ^^^ S.toList.getD (5 * g.val + 1) 0 ^^^
      S.toList.getD (5 * g.val + 2) 0 ^^^ S.toList.getD (5 * g.val + 3) 0 ^^^ S.toList.getD (5 * g.val + 4) 0 := by
  simp only [groupParity, lane_laneIdx]
  rfl

/-! What each step fixes -/

/-- With no parity there is nothing to diffuse (R60). -/
theorem thetaStep_of_groupParity_zero (S : Lanes) (h : ∀ g, groupParity S g = 0) : thetaStep S = S := by
  apply lanes_ext
  intro i
  rw [thetaStep_lane, diffusion, h, h, rotateRight_zeros]
  simp

theorem rhoStep_replicate (v : Lane) (h : ∀ n, rotateRight v n = v) :
    rhoStep (Vector.replicate 25 v) = Vector.replicate 25 v := by
  apply lanes_ext
  intro i
  rw [rhoStep_lane, replicate_lane, h]

theorem piStep_replicate (v : Lane) : piStep (Vector.replicate 25 v) = Vector.replicate 25 v := by
  apply lanes_ext
  intro i
  rw [piStep_lane, replicate_lane, replicate_lane]

/-- In a State of equal lanes the term `~v & v` that each lane receives is 0 (R63). -/
theorem chiStep_replicate (v : Lane) : chiStep (Vector.replicate 25 v) = Vector.replicate 25 v := by
  apply lanes_ext
  intro i
  have hmix : ~~~ v &&& v = 0 := by simp
  rw [chiStep_lane, replicate_lane, replicate_lane, replicate_lane, hmix]
  exact BitVec.xor_zero

theorem iotaStep_zero (S : Lanes) : iotaStep S 0 = S := by
  apply lanes_ext
  intro i
  by_cases hi : i = 0
  · rw [hi]
    exact (iotaStep_lane_zero S 0).trans (BitVec.xor_zero)
  · exact iotaStep_lane_of_ne S 0 i hi

theorem groupParity_zeroLanes (g : Fin 5) : groupParity zeroLanes g = 0 := by
  simp only [groupParity, zeroLanes, replicate_lane]
  rfl

/-! The source index of the lane permutation: the row of the source is the column of the target (R62) -/

theorem piSource_injective : Function.Injective piSource := by
  intro i j h
  have hval := congrArg Fin.val h
  simp only [piSource] at hval
  omega

theorem piSource_eq_self_iff (i : Fin 25) : piSource i = i ↔ i = 0 := by
  simp only [Fin.ext_iff, piSource, Fin.val_zero]
  omega

/-! The round -/

theorem oneRound_eq (S : Lanes) (rc : Lane) :
    oneRound S rc = iotaStep (chiStep (piStep (rhoStep (thetaStep S)))) rc := by
  rw [oneRound]

/-- The first four steps fix the zero State, so a round of it is the injection alone (R65). -/
theorem oneRound_zeroLanes (rc : Lane) : oneRound zeroLanes rc = iotaStep zeroLanes rc := by
  have htheta : thetaStep zeroLanes = zeroLanes := thetaStep_of_groupParity_zero _ groupParity_zeroLanes
  have hrho : rhoStep zeroLanes = zeroLanes := rhoStep_replicate 0 rotateRight_zeros
  have hpi : piStep zeroLanes = zeroLanes := piStep_replicate 0
  have hchi : chiStep zeroLanes = zeroLanes := chiStep_replicate 0
  rw [oneRound_eq, htheta, hrho, hpi, hchi]

end Sys2Proof.Machine
end

section
/-! The statements about rotation, the five round steps and the round. -/
namespace Sys2Proof.Machine

/-- Settles O3: the bit form is `rotateRight_bit`, which splits at the bit where the two shifts meet. -/
theorem rotateRightMovesBits : Obligations.RotateRightMovesBits := by
  intro v n
  refine ⟨?_, rotateRight_of_pos v n, rotateRight_bit v n⟩
  rintro rfl
  exact rotateRight_zero v

/-- Settles O4: the statement's parities are `groupParity`, and addition on `Fin 5` is its sum mod 5. -/
theorem thetaSpreadsGroupParities : Obligations.ThetaSpreadsGroupParities := by
  intro S lane c
  have hparity : ∀ g : Fin 5, groupParity S g = c g.val := groupParity_eq S
  constructor
  · intro i
    rw [thetaStep_lane, diffusion, hparity, hparity]
    rfl
  · intro hzero
    exact thetaStep_of_groupParity_zero S fun g => (hparity g).trans (hzero g.val g.isLt)

/-- Settles O5: the model's table is the transcribed one, its entry for lane 0 is 0, and a rotation fixes a lane of
equal bits. -/
theorem rhoRotatesEveryLane : Obligations.RhoRotatesEveryLane := by
  intro S i
  refine ⟨?_, ?_, ?_⟩
  · rw [rhoStep_lane]
    congr 1
    revert i
    decide
  · rintro rfl
    exact (rhoStep_lane S 0).trans (rotateRight_zero _)
  · rw [rhoStep_lane]
    rintro (hzeros | hones)
    · rw [hzeros, rotateRight_zeros]
    · rw [hones, rotateRight_ones]

/-- Settles O7: the two neighbours are the lanes x+1 and x+2 of the row, and a State of equal lanes is fixed. -/
theorem chiMixesRowsBitwise : Obligations.ChiMixesRowsBitwise := by
  refine ⟨?_, chiStep_replicate 0, chiStep_replicate _⟩
  intro S lane i y a b
  have hlane : (chiStep S)[i] = S[i] ^^^ (~~~ a &&& b) := by
    rw [chiStep_lane, lane_laneIdx, lane_laneIdx]
    rfl
  refine ⟨hlane, fun k hk => ?_⟩
  rw [hlane, BitVec.getLsbD_xor, BitVec.getLsbD_and, BitVec.getLsbD_not, decide_eq_true hk, Bool.true_and]

/-- Settles O9: on the zero State the round is the injection alone, whose lanes are known. -/
theorem roundIsFiveSteps : Obligations.RoundIsFiveSteps := by
  intro S rc
  have hround : oneRound (Vector.replicate 25 0) rc = iotaStep (Vector.replicate 25 0) rc := oneRound_zeroLanes rc
  refine ⟨oneRound_eq S rc, ?_, fun i hi => ?_⟩
  · rw [hround, iotaStep_lane_zero]
    exact BitVec.zero_xor
  · rw [hround, iotaStep_lane_of_ne _ rc i hi, replicate_lane]

/-- Settles O6: on a finite type the injective source index is a bijection. -/
theorem piMovesLanesBijectively : Obligations.PiMovesLanesBijectively :=
  ⟨piStep_lane, fun _ => rfl, Finite.injective_iff_bijective.mp piSource_injective, piSource_eq_self_iff⟩

/-- Settles O8: the constants are iterates of the seed, and the advance never reaches 0. -/
theorem iotaChangesLaneZeroOnly : Obligations.IotaChangesLaneZeroOnly := by
  intro S rc
  exact ⟨iotaStep_lane_zero S rc, iotaStep_lane_of_ne S rc, iotaStep_zero S,
    fun k _ => lfsrIter_ne_zero k rcSeed (by decide)⟩

end Sys2Proof.Machine
end

section
/-! SUPPORT. The advance rule as one equation, the constants past the 64th, and a message that pads to one block. -/
namespace Sys2Proof.Machine

/-! The advance rule: bit 63 leaves the register and comes back as bit 0 -/

theorem getLsbD_63_iff (c : Lane) : c.getLsbD 63 = true ↔ 2 ^ 63 ≤ c.toNat := by
  have hmsb : c.getLsbD 63 = c.msb := (BitVec.msb_eq_getLsbD_last c).symm
  rw [hmsb, BitVec.msb_eq_true_iff_two_mul_ge]
  omega

/-- The two cases of the rule in one: the tap is added exactly when bit 63 is set (R68). -/
theorem lfsrNext_eq (c : Lane) : lfsrNext c = (c <<< 1) ^^^ (if c.getLsbD 63 then rcTap else 0) := by
  by_cases h : c.getLsbD 63 = true
  · rw [if_pos h, lfsrNext_of_le c ((getLsbD_63_iff c).mp h)]
  · have hlt : c.toNat < 2 ^ 63 := Nat.lt_of_not_le (mt (getLsbD_63_iff c).mpr h)
    rw [if_neg h, lfsrNext_of_lt c hlt]
    exact BitVec.xor_zero.symm

/-- A shift clears bit 0 and the tap sets it, so the new bit 0 tells the bit that was shifted out. -/
theorem lfsrNext_bit_zero (c : Lane) : (lfsrNext c).getLsbD 0 = c.getLsbD 63 := by
  rw [lfsrNext_eq]
  cases c.getLsbD 63 <;> simp [rcTap]

/-- A shift by one together with the bit it drops gives the lane back. -/
theorem eq_of_shiftLeft_one_eq (c d : Lane) (htop : c.getLsbD 63 = d.getLsbD 63) (hshift : c <<< 1 = d <<< 1) :
    c = d := by
  apply BitVec.eq_of_getLsbD_eq
  intro b hb
  by_cases hb63 : b = 63
  · rw [hb63, htop]
  · have hlt : b + 1 < 64 := by omega
    have hbit := congrArg (BitVec.getLsbD · (b + 1)) hshift
    simpa [hlt, BitVec.getLsbD_eq_getElem hb] using hbit

/-- Equal successors have equal bits 0, so the same value was added to both shifts (R68). -/
theorem lfsrNext_injective : Function.Injective lfsrNext := by
  intro c d h
  have htop : c.getLsbD 63 = d.getLsbD 63 := by rw [← lfsrNext_bit_zero c, h, lfsrNext_bit_zero d]
  rw [lfsrNext_eq, lfsrNext_eq, htop] at h
  exact eq_of_shiftLeft_one_eq c d htop ((BitVec.xor_left_inj _).mp h)

theorem lfsrNext_eq_zero_iff (c : Lane) : lfsrNext c = 0 ↔ c = 0 := by
  have hzero : lfsrNext 0 = 0 := by decide
  exact lfsrNext_injective.eq_iff' hzero

/-! The constants past the 64th: the step from 2^63 is the first that adds the tap -/

theorem lfsrIter_succ_of_eq (n : Nat) (c v : Lane) (h : lfsrIter n c = v) : lfsrIter (n + 1) c = lfsrNext v :=
  congrArg lfsrNext h

theorem lfsrIter_rcSeed_64 : lfsrIter 64 rcSeed = 0xC000000000000001 :=
  (lfsrIter_succ_of_eq 63 _ _ (lfsrIter_rcSeed 63 (by decide))).trans (by decide)

theorem lfsrIter_rcSeed_65 : lfsrIter 65 rcSeed = 0x4000000000000003 :=
  (lfsrIter_succ_of_eq 64 _ _ lfsrIter_rcSeed_64).trans (by decide)

theorem lfsrIter_rcSeed_66 : lfsrIter 66 rcSeed = 0x8000000000000006 :=
  (lfsrIter_succ_of_eq 65 _ _ lfsrIter_rcSeed_65).trans (by decide)

/-! One block, from the seed -/

/-- A padded message fills its blocks (R75). -/
theorem padded_length (m : List Byte) : (m ++ pad m.length).length = 136 * blockCount m.length := by
  simp only [pad, padZeros, blockCount, List.length_append, List.length_cons, List.length_replicate, List.length_nil]
  omega

theorem blocksOf_one_block (P : List Byte) (h : P.length = 136) : blocksOf P = [blockAt P 0] := by
  simpa [blocksOf] using blocksOf_append P [] h

theorem absorbBlocks_singleton (scope : RcSeedScope) (q : Lanes × Lane) (b : Block) :
    absorbBlocks scope q [b] = absorbBlock scope q b := rfl

theorem startRc_rcSeed (scope : RcSeedScope) : startRc scope rcSeed = rcSeed := by
  cases scope <;> rfl

/-- While RC holds its seed, the two seedings permute alike (R69). -/
theorem permuteLanes_rcSeed (scope scope' : RcSeedScope) (S : Lanes) :
    permuteLanes scope S rcSeed = permuteLanes scope' S rcSeed := by
  rw [permuteLanes_eq, permuteLanes_eq, startRc_rcSeed, startRc_rcSeed]

theorem absorbBlock_rcSeed (scope scope' : RcSeedScope) (S : Lanes) (b : Block) :
    absorbBlock scope (S, rcSeed) b = absorbBlock scope' (S, rcSeed) b :=
  permuteLanes_rcSeed scope scope' _

/-- The digest of a message that pads to one block takes one permutation (R84). -/
theorem hashMessage_of_one_block (scope : RcSeedScope) (m : List Byte) (h : blockCount m.length = 1) :
    hashMessage scope m = squeeze (absorbBlock scope (zeroLanes, rcSeed) (blockAt (m ++ pad m.length) 0)).1 := by
  have hlen : (m ++ pad m.length).length = 136 := by rw [padded_length, h]
  rw [hashMessage, blocksOf_one_block _ hlen, absorbBlocks_singleton]

end Sys2Proof.Machine
end

section
/-! The statements about the round constants and their seeding. -/
namespace Sys2Proof.Machine

/-- Settles O11: bit 0 of the successor is bit 63 of the lane, so the successor determines the lane. -/
theorem lfsrAdvanceIsInjective : Obligations.LfsrAdvanceIsInjective := by
  refine ⟨fun c => ⟨fun hclear => ?_, fun hset => ?_, lfsrNext_eq_zero_iff c⟩, lfsrNext_injective⟩
  · rw [lfsrNext_eq, hclear]
    exact BitVec.xor_zero
  · rw [lfsrNext_eq, hset]
    rfl

/-- Settles O20: such a message pads to one block, and its one permutation starts from the seed either way. -/
theorem shortMessagesIgnoreSeedScope : Obligations.ShortMessagesIgnoreSeedScope := by
  intro m hm
  have hone : blockCount m.length = 1 := by
    rw [blockCount]
    omega
  rw [hashMessage_of_one_block _ m hone, hashMessage_of_one_block _ m hone, absorbBlock_rcSeed]

/-- Settles O12: no bit is shifted out before the 64th value, and the last three are computed from 2^63. -/
theorem roundConstantsFromSeed : Obligations.RoundConstantsFromSeed :=
  ⟨lfsrIter_rcSeed, lfsrIter_rcSeed_64, lfsrIter_rcSeed_65, lfsrIter_rcSeed_66⟩

end Sys2Proof.Machine
end

section
/-! SUPPORT. The zero run of the padding, and a padded tail cut into its one or two blocks. -/
namespace Sys2Proof.Machine

/-! The zero run and the length (R74, R75) -/

/-- The run is never empty, so the two markers never meet in one byte. -/
theorem padZeros_pos (n : Nat) : 1 ≤ padZeros n :=
  Nat.sub_pos_of_lt (Nat.mod_lt _ (by decide))

theorem padZeros_le (n : Nat) : padZeros n ≤ 136 :=
  Nat.sub_le _ _

theorem padZeros_eq_136_iff (n : Nat) : padZeros n = 136 ↔ n % 136 = 134 := by
  rw [padZeros]
  omega

theorem pad_length (n : Nat) : (pad n).length = 2 + padZeros n := by
  simp only [pad, List.length_cons, List.length_append, List.length_replicate, List.length_nil]
  omega

/-- The run completes the block that the two markers open (R75). -/
theorem add_pad_length (n : Nat) : n + (pad n).length = 136 * blockCount n := by
  rw [pad_length, padZeros, blockCount]
  omega

/-! Dependence on the tail alone (R76) -/

theorem padZeros_mod (n : Nat) : padZeros (n % 136) = padZeros n := by
  rw [padZeros, padZeros, Nat.mod_add_mod]

theorem pad_mod (n : Nat) : pad (n % 136) = pad n := by
  rw [pad, pad, padZeros_mod]

/-! The three shapes of the padding of a tail (R76) -/

theorem padZeros_of_le (n : Nat) (h : n ≤ 133) : padZeros n = 134 - n := by
  rw [padZeros, Nat.mod_eq_of_lt (by omega)]
  omega

theorem pad_of_le (n : Nat) (h : n ≤ 133) : pad n = [0x80] ++ List.replicate (134 - n) 0x00 ++ [0x01] := by
  rw [pad, padZeros_of_le n h]
  rfl

/-- With 134 bytes the run has one zero left in the first block and 135 in the second. -/
theorem pad_134 : pad 134 = [0x80, 0x00] ++ (List.replicate 135 0x00 ++ [0x01]) := rfl

theorem pad_135 : pad 135 = [0x80] ++ (List.replicate 135 0x00 ++ [0x01]) := rfl

/-! A byte sequence of one or of two blocks, cut into them -/

theorem blockAt_zero_toList (P : List Byte) (h : P.length = 136) : (blockAt P 0).toList = P := by
  rw [blockAt_slice P 0 h.ge]
  exact List.take_of_length_le h.le

theorem exists_block_of_length (P : List Byte) (h : P.length = 136) :
    ∃ b : Block, blocksOf P = [b] ∧ b.toList = P :=
  ⟨blockAt P 0, blocksOf_one_block P h, blockAt_zero_toList P h⟩

theorem exists_blocks_of_append (P Q : List Byte) (hP : P.length = 136) (hQ : Q.length = 136) :
    ∃ b c : Block, blocksOf (P ++ Q) = [b, c] ∧ b.toList = P ∧ c.toList = Q := by
  have hcut : blocksOf (P ++ Q) = [blockAt P 0, blockAt Q 0] := by
    rw [blocksOf_append P Q hP, blocksOf_one_block Q hQ]
  exact ⟨blockAt P 0, blockAt Q 0, hcut, blockAt_zero_toList P hP, blockAt_zero_toList Q hQ⟩

/-- When the padding ends in 135 zeros and the last marker, they are the second block: the tail and the bytes before
them fill the first. -/
theorem exists_blocks_of_pad_eq (t front : List Byte) (hfull : t.length + front.length = 136)
    (hpad : pad t.length = front ++ (List.replicate 135 0x00 ++ [0x01])) :
    ∃ b c : Block, blocksOf (t ++ pad t.length) = [b, c] ∧ b.toList = t ++ front ∧
      c.toList = List.replicate 135 0x00 ++ [0x01] := by
  rw [hpad, ← List.append_assoc]
  exact exists_blocks_of_append _ _ (List.length_append.trans hfull) rfl

end Sys2Proof.Machine
end

section
/-! The statements about padding. -/
namespace Sys2Proof.Machine

/-- Settles O14: the markers and the zero run, whose length completes the last block. -/
theorem paddedLengthIsWholeBlocks : Obligations.PaddedLengthIsWholeBlocks := by
  intro n
  have hpos := padZeros_pos n
  have hle := padZeros_le n
  refine ⟨pad_length n, ?_, ?_, add_pad_length n, rfl⟩
  · rw [pad_length]
    omega
  · rw [pad_length]
    omega

/-- Settles O15: the padding of each kind of tail is known, and the tail and its padding are cut at byte 136. -/
theorem finalTailIsOneOrTwoBlocks : Obligations.FinalTailIsOneOrTwoBlocks := by
  refine ⟨fun n => (pad_mod n).symm, fun t => ⟨fun hshort => ?_, fun h134 => ?_, fun h135 => ?_⟩⟩
  · have hone : blockCount t.length = 1 := by
      rw [blockCount]
      omega
    have hlen : (t ++ pad t.length).length = 136 := by rw [padded_length, hone]
    obtain ⟨b, hblocks, hbytes⟩ := exists_block_of_length _ hlen
    refine ⟨b, hblocks, ?_⟩
    rw [hbytes, pad_of_le _ hshort]
    simp only [List.append_assoc]
  · have hpad : pad t.length = [0x80, 0x00] ++ (List.replicate 135 0x00 ++ [0x01]) := by rw [h134, pad_134]
    exact exists_blocks_of_pad_eq t [0x80, 0x00] (by rw [h134]; rfl) hpad
  · have hpad : pad t.length = [0x80] ++ (List.replicate 135 0x00 ++ [0x01]) := by rw [h135, pad_135]
    exact exists_blocks_of_pad_eq t [0x80] (by rw [h135]; rfl) hpad

/-- Settles O13: the definition's zero run, with its bounds and the one residue that makes it longest. -/
theorem padIsMarkersAroundZeros : Obligations.PadIsMarkersAroundZeros :=
  fun n => ⟨rfl, padZeros_pos n, padZeros_le n, padZeros_eq_136_iff n⟩

end Sys2Proof.Machine
end

section
/-! SUPPORT. The frame's lanes, the digest in the state window, and the sponge along a run of ABSORB completions. -/
namespace Sys2Proof.Machine

/-! The frame's lanes (R80, R81): 17 of the block's bytes, then zeros -/

theorem frame_toList (blk : Block) : (frame blk).toList = blk.toList ++ List.replicate 64 0x00 := by
  rw [frame, Vector.toList_append, Vector.toList_replicate]

theorem absorbLanes_lane (S : Lanes) (blk : Block) (i : Fin 25) :
    (absorbLanes S blk)[i] = S[i] ^^^ (bytesToLanes (frame blk))[i] :=
  Vector.getElem_ofFn i.isLt

/-- A lane below the rate has its eight bytes in the block. -/
theorem frame_lane_of_lt (blk : Block) (i : Fin 17) :
    (bytesToLanes (frame blk))[i.val] = laneOfBytes fun k => blk[8 * i.val + k.val] := by
  refine (bytesToLanes_lane (frame blk) ⟨i.val, by omega⟩).trans (congrArg laneOfBytes (funext fun k => ?_))
  exact frame_low blk (8 * i.val + k.val) (by omega)

theorem bytesToLanes_lane_of_zero {n : Nat} (b : Vector Byte (8 * n)) (j : Fin n)
    (h : ∀ k : Fin 8, b[8 * j.val + k.val] = 0) : (bytesToLanes b)[j] = 0 := by
  rw [bytesToLanes_lane, funext h]
  rfl

/-- The capacity lanes of every frame are zero. -/
theorem frame_lane_of_le (blk : Block) (i : Fin 25) (hi : 17 ≤ i.val) : (bytesToLanes (frame blk))[i] = 0 :=
  bytesToLanes_lane_of_zero _ i fun k => frame_high blk _ (by omega) (by omega)

theorem frame_zero_byte (j : Nat) (hj : j < 8 * 25) : (frame (Vector.replicate 136 0x00))[j] = 0 := by
  by_cases hlow : j < 136
  · rw [frame_low _ j hlow, Vector.getElem_replicate]
  · exact frame_high _ j hj (by omega)

/-- A lane whose frame lane is zero is left alone. -/
theorem absorbLanes_lane_of_zero (S : Lanes) (blk : Block) (i : Fin 25) (h : (bytesToLanes (frame blk))[i] = 0) :
    (absorbLanes S blk)[i] = S[i] := by
  rw [absorbLanes_lane, h]
  exact BitVec.xor_zero

/-! The digest (R83), and where the host reads it (R36, R92) -/

/-- The digest's bytes come from lanes 0..3, so Lanes that agree there have one digest (R83). -/
theorem squeeze_congr (S T : Lanes) (h : ∀ i : Fin 4, S[i.val] = T[i.val]) : squeeze S = squeeze T := by
  refine Vector.ext fun j hj => ?_
  have hlane : S[j / 8] = T[j / 8] := h ⟨j / 8, by omega⟩
  calc (squeeze S)[j]
      _ = byteOfLane S[j / 8] (j % 8) := squeeze_byte S ⟨j, hj⟩
      _ = byteOfLane T[j / 8] (j % 8) := by rw [hlane]
      _ = (squeeze T)[j] := (squeeze_byte T ⟨j, hj⟩).symm

/-- While idle, the window's addresses return the State's bytes (R36, R92). -/
theorem memRead_window (s : State) (hidle : s.status.busy = false) (j : Fin 200) :
    memRead (BitVec.ofNat 9 (0x100 + j.val)) s = .ok (windowByte s.lanes j) := by
  have haddr : (BitVec.ofNat 9 (0x100 + j.val)).toNat = 0x100 + j.val := (portAddr_eq_iff _ _ (by omega)).mp rfl
  simp (disch := omega) only [memRead, haddr, if_neg, dif_pos, hidle, Bool.false_eq_true, if_false,
    Nat.add_sub_cancel_left]

/-- While idle, the window's first 32 bytes are the digest (R36, R83). -/
theorem memRead_digest (s : State) (hidle : s.status.busy = false) (j : Fin 32) :
    memRead (BitVec.ofNat 9 (0x100 + j.val)) s = .ok (squeeze s.lanes)[j] := by
  rw [squeeze_byte]
  exact (memRead_window s hidle ⟨j.val, by omega⟩).trans (congrArg _ (windowByte_eq _ _))

/-! A run of ABSORB completions (R85, R87) -/

/-- An ABSORB that finds a block in BLK absorbs that block (R98). -/
theorem execAbsorb_sponge (s t : State) (blk : List Byte) (hlen : blk.length = 136) (hblk : BlkHolds blk s)
    (h : exec .absorb s = .next t) :
    (t.lanes, t.rc) = absorbBlock s.rcSeedScope (s.lanes, s.rc) (blockAt blk 0) := by
  have hread : s.blk.readRange 0 136 = .ok blk :=
    hlen ▸ Memory.readRange_ok s.blk blk 0 fun j hj => (congrArg s.blk.read (Nat.zero_add j)).trans (hblk j hj)
  obtain ⟨bs, hbs, rfl⟩ := execAbsorb_cases s t h
  obtain rfl : bs = blk := Except.ok.inj (hbs.symm.trans hread)
  rfl

/-- The blocks of a run are whole, so their bytes do not move the message's padding. -/
theorem absorbRun_length {s t : State} {ms : List (List Byte)} (h : AbsorbRun s ms t) : 136 ∣ ms.flatten.length := by
  induction h with
  | nil s t hsame => exact Nat.dvd_zero 136
  | cons s s1 s2 t blk rest hsame hlen hblk hexec hrun ih =>
    rw [List.flatten_cons, List.length_append, hlen]
    exact Nat.dvd_add (Nat.dvd_refl 136) ih

theorem absorbRun_scope {s t : State} {ms : List (List Byte)} (h : AbsorbRun s ms t) :
    t.rcSeedScope = s.rcSeedScope := by
  induction h with
  | nil s t hsame =>
    obtain ⟨-, -, hscope⟩ := hsame
    exact hscope
  | cons s s1 s2 t blk rest hsame hlen hblk hexec hrun ih =>
    obtain ⟨-, -, hscope⟩ := hsame
    obtain ⟨-, -, hexecScope, -⟩ := exec_frame .absorb s1 s2 hexec
    rw [ih, hexecScope, hscope]

/-- Absorbing a run's bytes and whatever follows them is absorbing what follows from the run's last state (R87). -/
theorem absorbRun_absorbBlocks {s t : State} {ms : List (List Byte)} (h : AbsorbRun s ms t) (P : List Byte) :
    absorbBlocks s.rcSeedScope (s.lanes, s.rc) (blocksOf (ms.flatten ++ P)) =
      absorbBlocks t.rcSeedScope (t.lanes, t.rc) (blocksOf P) := by
  induction h with
  | nil s t hsame =>
    obtain ⟨hlanes, hrc, hscope⟩ := hsame
    rw [hlanes, hrc, hscope]
    rfl
  | cons s s1 s2 t blk rest hsame hlen hblk hexec hrun ih =>
    obtain ⟨hlanes, hrc, hscope⟩ := hsame
    obtain ⟨-, -, hexecScope, -⟩ := exec_frame .absorb s1 s2 hexec
    rw [List.flatten_cons, List.append_assoc, blocksOf_append _ _ hlen, ← ih,
      execAbsorb_sponge s1 s2 blk hlen hblk hexec, hexecScope, hlanes, hrc, hscope]
    rfl

/-- Whole blocks before a tail leave its padding as it is (R76). -/
theorem pad_add_of_dvd (a n : Nat) (h : 136 ∣ a) : pad (a + n) = pad n := by
  obtain ⟨q, rfl⟩ := h
  rw [← pad_mod, Nat.mul_add_mod, pad_mod]

/-- The run and then FINAL's blocks of the tail give the State that `hash` squeezes (R84, R87). -/
theorem hashMessage_of_absorbRun {s t : State} {ms : List (List Byte)} (h : AbsorbRun s ms t)
    (hlanes : s.lanes = zeroLanes) (hrc : s.rc = rcSeed) (tail : List Byte) :
    hashMessage s.rcSeedScope (ms.flatten ++ tail) = squeeze (finalEffect tail t).lanes := by
  have hpad : pad (ms.flatten ++ tail).length = pad tail.length := by
    rw [List.length_append, pad_add_of_dvd _ _ (absorbRun_length h)]
  rw [hashMessage, hpad, List.append_assoc, ← hlanes, ← hrc, absorbRun_absorbBlocks h, finalEffect_lanes]

end Sys2Proof.Machine
end

section
/-! The statements about the sponge: absorbing, squeezing, and the commands that compute the reference function. -/
namespace Sys2Proof.Machine

/-- Settles O18: a lane of the frame is a lane of the block or zero, and all of them are zero for the zero block. -/
theorem absorbXorsRateLanesOnly : Obligations.AbsorbXorsRateLanesOnly := by
  intro S blk
  refine ⟨frame_toList blk, absorbLanes_lane S blk, fun i => ?_, fun i hi => ?_, ?_⟩
  · rw [← frame_lane_of_lt blk i]
    exact absorbLanes_lane S blk ⟨i.val, by omega⟩
  · exact absorbLanes_lane_of_zero S blk i (frame_lane_of_le blk i hi)
  · exact lanes_ext _ _ fun i =>
      absorbLanes_lane_of_zero S _ i (bytesToLanes_lane_of_zero _ i fun k => frame_zero_byte _ (by omega))

/-- Settles O21: FINAL absorbs the padded tail where the run of ABSORBs left the sponge, which is where `hash` of the
whole message is after its full blocks. -/
theorem commandsComputeHash : Obligations.CommandsComputeHash := by
  intro s t ms tail p hlanes hrc hrun htail hp hlen hblk
  have hfinal : exec .final t = .next (endCommand (finalEffect tail t)) :=
    execFinal_written t p tail hp hlen.symm (hlen ▸ htail) hblk
  rw [hashMessage_of_absorbRun hrun hlanes hrc tail]
  exact ⟨_, hfinal, rfl, rfl, rfl, memRead_digest _ rfl⟩

/-- Settles O19: the lane of digest byte j is j div 8, which is below 4. -/
theorem squeezeReadsLanesZeroToThree : Obligations.SqueezeReadsLanesZeroToThree :=
  fun S T => ⟨squeeze_byte S, squeeze_congr S T⟩

end Sys2Proof.Machine
end

section
/-! SUPPORT. The eight bytes of a lane, put together again. -/
namespace Sys2Proof.Machine

/-- The lane of a lane's eight bytes is that lane: bit t of it is bit t mod 8 of byte t div 8 (R88, R89). -/
theorem laneOfBytes_byteOfLane (v : Lane) : (laneOfBytes fun k : Fin 8 => byteOfLane v k.val) = v := by
  apply BitVec.eq_of_getLsbD_eq
  intro t ht
  have hmod : t % 8 < 8 := Nat.mod_lt t (by decide)
  have hbit := laneOfBytes_bit (fun k : Fin 8 => byteOfLane v k.val) ⟨t / 8, by omega⟩ (t % 8) hmod
  rwa [byteOfLane_bit _ _ _ hmod, Nat.div_add_mod] at hbit

end Sys2Proof.Machine
end

section
/-! The statement about the two directions of the codec together. -/
namespace Sys2Proof.Machine

/-- Settles O17: a lane is the lane of its own eight bytes, and byte i is byte i mod 8 of lane i div 8. -/
theorem codecRoundTrips : Obligations.CodecRoundTrips := by
  intro n b l
  constructor
  · ext1 j hj
    calc (bytesToLanes (lanesToBytes l))[j]
        = laneOfBytes fun k : Fin 8 => (lanesToBytes l)[8 * j + k.val] := bytesToLanes_lane _ ⟨j, hj⟩
      _ = laneOfBytes fun k : Fin 8 => byteOfLane l[j] k.val :=
        congrArg laneOfBytes (funext (lanesToBytes_byte l ⟨j, hj⟩))
      _ = l[j] := laneOfBytes_byteOfLane l[j]
  · ext1 i hi
    have hbyte := lanesToBytes_byte (bytesToLanes b) ⟨i / 8, by omega⟩ ⟨i % 8, by omega⟩
    rw [bytesToLanes_lane, byteOfLane_laneOfBytes] at hbyte
    simpa only [Nat.div_add_mod] using hbyte

end Sys2Proof.Machine
end

section
/-! SUPPORT. The host port, one rule per region of the memory map: what a read returns and what a write does. -/
namespace Sys2Proof.Machine

/-! Reads (R92) -/

theorem memRead_blk_written (a : PortAddr) (s : State) (b : Byte) (ha : a.toNat ≤ 0x087)
    (hb : s.blk.read a.toNat = some b) : memRead a s = .ok b := by
  rw [memRead, if_pos (by omega), hb]

theorem memRead_blk_unwritten (a : PortAddr) (s : State) (ha : a.toNat ≤ 0x087) (hb : s.blk.read a.toNat = none) :
    memRead a s = .error (.unwrittenBlk a.toNat) := by
  rw [memRead, if_pos (by omega), hb]

theorem memRead_cmd (s : State) : memRead 0x090 s = .ok 0x00 := rfl

theorem memRead_len (s : State) : memRead 0x091 s = .ok s.len := rfl

theorem memRead_status (s : State) : memRead 0x092 s = .ok s.status.byte := rfl

theorem memRead_errcause (s : State) : memRead 0x093 s = .ok s.errcause.code := rfl

/-- While BUSY, the window's addresses return a draw (R36). -/
theorem memRead_window_busy (a : PortAddr) (s : State) (hlow : 0x100 ≤ a.toNat) (hhigh : a.toNat ≤ 0x1C7)
    (hbusy : s.status.busy = true) : memRead a s = .ok (Config.freeByte s.draws) := by
  simp (disch := omega) only [memRead, if_neg, dif_pos, hbusy, if_true]

theorem memRead_reserved (a : PortAddr) (s : State)
    (ha : (0x088 ≤ a.toNat ∧ a.toNat ≤ 0x08F) ∨ (0x094 ≤ a.toNat ∧ a.toNat ≤ 0x0FF) ∨ 0x1C8 ≤ a.toNat) :
    memRead a s = .ok 0x00 := by
  simp (disch := omega) only [memRead, if_neg, dif_neg]

/-- The number in STATUS, one bit per flag (R27). -/
theorem status_byte_toNat (x : Status) : x.byte.toNat = x.busy.toNat + 2 * x.done.toNat + 4 * x.err.toNat := by
  obtain ⟨busy, done, err⟩ := x
  revert busy done err
  decide

/-! Writes (R93) -/

theorem memWrite_blk_hazard (a : PortAddr) (v : Byte) (s : State) (ha : a.toNat ≤ 0x087)
    (hreads : pendingReads a.toNat s = true) : memWrite a v s = .fault (.blkHazard a.toNat) := by
  rw [memWrite, if_pos (by omega), if_pos hreads]

theorem memWrite_blk (a : PortAddr) (v : Byte) (s : State) (ha : a.toNat ≤ 0x087)
    (hreads : ¬ pendingReads a.toNat s = true) : memWrite a v s = .next (writeBlk a.toNat v s) := by
  rw [memWrite, if_pos (by omega), if_neg hreads]

theorem memWrite_cmd (v : Byte) (s : State) : memWrite 0x090 v s = .next (issue v s) := rfl

theorem memWrite_len (v : Byte) (s : State) : memWrite 0x091 v s = .next (setLen v s) := rfl

/-- Every address above BLK but those of CMD and LEN ignores a write (R37). -/
theorem memWrite_ignored (a : PortAddr) (v : Byte) (s : State) (ha : 0x088 ≤ a.toNat) (hcmd : a.toNat ≠ 0x090)
    (hlen : a.toNat ≠ 0x091) : memWrite a v s = .next s := by
  rw [memWrite, if_neg (by omega), if_neg hcmd, if_neg hlen]

/-- A port write has a meaning at every address: it answers a next state or is the hazard's fault (R93, R121). -/
theorem memWrite_ne_refused (a : PortAddr) (v : Byte) (s : State) (f : Refusal) : memWrite a v s ≠ .refused f := by
  unfold memWrite
  split
  · split <;> nofun
  · split
    · nofun
    · split <;> nofun

end Sys2Proof.Machine
end

section
/-! SUPPORT. The outcome of issue, check by check, and what the latch holds after it. -/
namespace Sys2Proof.Machine

theorem issue_of_error {v : Byte} {s : State} {c : ErrCause} (h : issueError v s = some c) :
    issue v s = raiseError c s := by
  rw [issue, h]

theorem issue_of_none {v : Byte} {s : State} (h : issueError v s = none) : issue v s = latchCommand v s := by
  rw [issue, h]

/-- The first check: BUSY (R94). -/
theorem issue_overrun (v : Byte) (s : State) (hbusy : s.status.busy = true) : issue v s = raiseError .overrun s :=
  issue_of_error (if_pos hbusy)

/-- The second check: the opcode (R94). -/
theorem issue_illegalOpcode (v : Byte) (s : State) (hidle : s.status.busy = false) (hop : 0x04 < v.toNat) :
    issue v s = raiseError .illegalOpcode s := by
  apply issue_of_error
  rw [issueError, if_neg (by simp [hidle]), if_pos hop]

/-- The third check: FINAL's length (R94). -/
theorem issue_badLength (s : State) (hidle : s.status.busy = false) (hlen : 135 < s.len.toNat) :
    issue 0x03 s = raiseError .badLength s := by
  apply issue_of_error
  rw [issueError, if_neg (by simp [hidle]), if_neg (by decide), if_pos ⟨rfl, hlen⟩]

/-- The last check: ABSORB, or FINAL with a legal length, after a FINAL (R94). -/
theorem issue_phase (v : Byte) (s : State) (hidle : s.status.busy = false)
    (hv : v = 0x02 ∨ v = 0x03 ∧ s.len.toNat ≤ 135) (hdone : s.status.done = true) :
    issue v s = raiseError .phase s := by
  have hreads : v = 0x02 ∨ v = 0x03 := hv.imp_right And.left
  have hop : ¬ v.toNat > 0x04 := by rcases hreads with rfl | rfl <;> decide
  have hlen : ¬ (v = 0x03 ∧ s.len.toNat > 135) := by
    rintro ⟨rfl, hlong⟩
    rcases hv with habsorb | ⟨-, hlegal⟩
    · exact absurd habsorb (by decide)
    · omega
  apply issue_of_error
  rw [issueError, if_neg (by simp [hidle]), if_neg hop, if_neg hlen, if_pos ⟨hreads, hdone⟩]

/-- While idle, a command whose operand and phase are legal is latched (R54, R94). -/
theorem issue_encode_latches (i : Instr) (s : State) (hidle : s.status.busy = false)
    (hlen : i.operandOk s.len = true) (hphase : i = .absorb ∨ i = .final → s.status.done = false) :
    issue (encode i) s = latchCommand (encode i) s :=
  issue_of_none ((issueError_encode_eq_none_iff i s hidle).mpr ⟨hlen, hphase⟩)

end Sys2Proof.Machine
end

section
/-! SUPPORT. The ways a legally latched completion can end, and whose step it is. -/
namespace Sys2Proof.Machine

/-- ABSORB's completion when its block is written (R98). -/
theorem execAbsorb_written (s : State) (blk : Block) (h : BlkHolds blk.toList s) :
    exec .absorb s = .next (endCommand (setSponge (absorbBlock s.rcSeedScope (s.lanes, s.rc) blk) s)) := by
  have hread : s.blk.readRange 0 blk.toList.length = .ok blk.toList :=
    Memory.readRange_ok s.blk blk.toList 0 fun j hj => (congrArg s.blk.read (Nat.zero_add j)).trans (h j hj)
  rw [Vector.length_toList] at hread
  simp only [exec, execAbsorb, absorbOperand, hread, blockAt_toList]

/-- A completion with a legal operand in the latch answers a next state, or faults on a byte of BLK that holds no
value (R95, R105). -/
theorem exec_next_or_unwritten (i : Instr) (s : State) (p : Pending) (hp : s.pend = some p)
    (hlen : i.operandOk p.len = true) :
    (∃ t, exec i s = .next t) ∨ ∃ j < 136, s.blk.read j = none ∧ exec i s = .fault (.unwrittenBlk j) := by
  cases i with
  | nop => exact .inl ⟨_, rfl⟩
  | init => exact .inl ⟨_, rfl⟩
  | absorb =>
    simp only [exec, execAbsorb, absorbOperand]
    cases hread : s.blk.readRange 0 136 with
    | ok bs => exact .inl ⟨_, rfl⟩
    | error f =>
      obtain ⟨j, hj, rfl, hnone⟩ := Memory.readRange_error _ _ _ _ hread
      exact .inr ⟨0 + j, by omega, hnone, rfl⟩
  | final =>
    have hle : p.len.toNat ≤ 135 := (operandOk_iff .final p.len).mp hlen rfl
    simp only [exec, execFinal, latchedLen, finalOperand, hp, hle, if_true]
    cases hread : s.blk.readRange 0 p.len.toNat with
    | ok bs => exact .inl ⟨_, rfl⟩
    | error f =>
      obtain ⟨j, hj, rfl, hnone⟩ := Memory.readRange_error _ _ _ _ hread
      exact .inr ⟨0 + j, by omega, hnone, rfl⟩
  | permute => exact .inl ⟨_, rfl⟩

/-- What the invariant says of a pending command: the latch holds a command's byte and a legal operand (R94). -/
theorem engineInv_pending (s : State) (h : EngineInv s) (hbusy : s.status.busy = true) :
    ∃ p i, s.pend = some p ∧ p.op = encode i ∧ i.operandOk p.len = true := by
  obtain ⟨p, hp⟩ := Option.isSome_iff_exists.mp (h.busyPend.symm.trans hbusy)
  have hlegal := h.pendLegal p hp
  simp only [Pending.legal, Bool.and_eq_true, Bool.or_eq_true, decide_eq_true_eq, bne_iff_ne] at hlegal
  obtain ⟨hop, hlen⟩ := hlegal
  obtain ⟨i, hi⟩ := (exists_eq_encode_iff p.op).mpr hop
  refine ⟨p, i, hp, hi, (operandOk_iff i p.len).mpr ?_⟩
  rintro rfl
  exact hlen.resolve_left (absurd hi)

theorem complete_of_decode (s : State) (p : Pending) (i : Instr) (hp : s.pend = some p) (hd : decode p.op = .ok i) :
    complete s = exec i s := by
  simp only [complete, fetchOp, hp, Option.map_some, hd]

/-- The host stops only for its own reasons: no statement of it reads the latch (R56, log entry 10). -/
theorem hostStep_ne_badLatch (s : State) : hostStep s ≠ .refused .badLatch := by
  cases hq : s.host.prog[s.host.pos]? with
  | none => rw [hostStep, hq]; nofun
  | some q =>
    cases q with
    | wr a v => rw [hostStep_wr a v s hq]; exact memWrite_ne_refused a v _ _
    | rd a x =>
      rw [hostStep_rd a x s hq, hostRead]
      split <;> nofun
    | label l => rw [hostStep_label l s hq]; nofun
    | bnz x m l =>
      rw [hostStep_bnz x m l s hq, hostBranch]
      split
      · nofun
      · split
        · nofun
        · split <;> nofun

/-- ERR is set by the host's write to CMD alone, and with a cause (R94, R102). -/
theorem hostStep_sets_err (s t : State) (h : hostStep s = .next t) (hclear : s.status.err = false)
    (hset : t.status.err = true) :
    ∃ v, s.host.prog[s.host.pos]? = some (.wr 0x090 v) ∧ t.errcause ≠ .clear := by
  have hne : t.status.err ≠ s.status.err := by simp [hclear, hset]
  rcases hostStep_engine s t h with
    ⟨-, -, -, hst, -⟩ | ⟨a, v, hq, -, ⟨-, -, -, hst, -⟩ | ⟨ha, -, -, -, herr⟩ | ⟨-, -, -, hst, -⟩⟩
  · exact absurd (congrArg Status.err hst) hne
  · exact absurd (congrArg Status.err hst) hne
  · obtain rfl := (portAddr_eq_iff a 0x090 (by decide)).mpr ha
    rcases herr with ⟨hsame, -⟩ | ⟨-, -, hcause⟩
    · exact absurd hsame hne
    · exact ⟨v, hq, hcause hclear⟩
  · exact absurd (congrArg Status.err hst) hne

/-- With no turn listed there is none to take. -/
theorem setTurns_tail_of_nil (s : State) (h : s.turns = []) : setTurns s.turns.tail s = s := by
  rw [h, List.tail_nil, ← h]
  rfl

/-- A step that completes runs `complete` on the state with the turn taken (R91, log entry 2). -/
theorem step_of_completes (s : State) (h : Completes s) : step s = complete (setTurns s.turns.tail s) := by
  obtain ⟨hbusy, ht | ⟨ts, ht⟩⟩ := h
  · rw [setTurns_tail_of_nil s ht, step, ht]
    exact if_pos hbusy
  · rw [step, ht]
    exact if_pos hbusy

/-- Every other step is the host's or answers a next state: a reset, or an engine's turn with nothing pending (R91). -/
theorem step_of_not_completes (s : State) (h : ¬ Completes s) :
    (∃ t, step s = .next t) ∨ step s = hostStep (setTurns s.turns.tail s) := by
  have hidle : (s.turns = [] ∨ ∃ ts, s.turns = .engine :: ts) → ¬ s.status.busy = true := fun ht hbusy => h ⟨hbusy, ht⟩
  cases ht : s.turns with
  | nil =>
    refine .inr ?_
    rw [← ht, setTurns_tail_of_nil s ht, step, ht]
    exact if_neg (hidle (.inl ht))
  | cons turn ts =>
    rw [step, ht]
    cases turn with
    | host => exact .inr rfl
    | engine => exact .inl ⟨_, if_neg (hidle (.inr ⟨ts, ht⟩))⟩
    | reset => exact .inl ⟨_, rfl⟩

/-- Under the invariant, a step that completes runs a command, and only an unwritten byte of BLK can stop it (R95,
R105). -/
theorem step_of_completes_of_inv (s : State) (h : EngineInv s) (hc : Completes s) :
    ∃ i, step s = exec i (setTurns s.turns.tail s) ∧
      ((∃ t, step s = .next t) ∨ ∃ j < 136, s.blk.read j = none ∧ step s = .fault (.unwrittenBlk j)) := by
  obtain ⟨p, i, hp, hop, hlen⟩ := engineInv_pending s h hc.1
  have hrun : step s = exec i (setTurns s.turns.tail s) := by
    rw [step_of_completes s hc]
    exact complete_of_decode _ p i hp ((decode_eq_ok_iff _ _).mpr hop)
  refine ⟨i, hrun, ?_⟩
  rw [hrun]
  exact exec_next_or_unwritten i _ p hp hlen

end Sys2Proof.Machine
end

section
/-! The statements about the host port, issue, and the five commands. -/
namespace Sys2Proof.Machine

/-- Settles O22: one rule per region of the map, and a window byte while idle is a byte of its lane. -/
theorem hostReadFollowsMap : Obligations.HostReadFollowsMap := by
  intro a s
  refine ⟨fun ha b => memRead_blk_written a s b ha, memRead_blk_unwritten a s, ?_, ?_, ?_, ?_, ?_, ?_,
    memRead_reserved a s⟩
  · rintro rfl
    exact memRead_cmd s
  · rintro rfl
    exact memRead_len s
  · rintro rfl
    exact ⟨_, memRead_status s, status_byte_toNat s.status⟩
  · rintro rfl
    exact ⟨_, memRead_errcause s, congrArg ErrCause.code, congrArg ErrCause.code, congrArg ErrCause.code,
      congrArg ErrCause.code, congrArg ErrCause.code⟩
  · intro j ha hidle
    obtain rfl := (portAddr_eq_iff a _ (by omega)).mpr ha
    rw [memRead_window s hidle j, windowByte_eq, byteOfLane]
  · exact fun hlow hhigh hbusy => ⟨_, memRead_window_busy a s hlow hhigh hbusy⟩

/-- Settles O24: the hazard is `pendingReads`, and the other regions have one rule each. -/
theorem hostWriteFollowsMap : Obligations.HostWriteFollowsMap := by
  intro a v s hazard
  have hreads : pendingReads a.toNat s = true ↔ hazard := pendingReads_iff a.toNat s
  refine ⟨fun ha hz => memWrite_blk_hazard a v s ha (hreads.mpr hz),
    fun ha hz => memWrite_blk a v s ha (mt hreads.mp hz), ?_, ?_, fun ha hcmd hlen => ?_⟩
  · rintro rfl
    exact memWrite_cmd v s
  · rintro rfl
    exact memWrite_len v s
  · exact memWrite_ignored a v s ha (mt (portAddr_eq_iff a 0x090 (by decide)).mpr hcmd)
      (mt (portAddr_eq_iff a 0x091 (by decide)).mpr hlen)

/-- Settles O26: one rule per check, each under the failure of the checks before it. -/
theorem issueChecksInOrder : Obligations.IssueChecksInOrder := by
  intro v s
  refine ⟨issue_overrun v s, issue_illegalOpcode v s, ?_, issue_phase v s, fun hidle hop hlen hphase => ?_⟩
  · rintro hidle rfl
    exact issue_badLength s hidle
  · exact issue_of_none ((issueError_eq_none_iff v s hidle).mpr ⟨hop, hlen, hphase⟩)

/-- Settles O31: BLK holds the block, so the operand is read and absorbed. -/
theorem absorbCompletes : Obligations.AbsorbCompletes := by
  intro s
  refine ⟨decode_encode .absorb, issue_overrun _ s, fun hidle => issue_phase _ s hidle (.inl rfl), ?_, ?_⟩
  · exact fun hidle hphase => issue_encode_latches .absorb s hidle rfl fun _ => hphase
  · exact fun blk hblk => execAbsorb_written s blk hblk

/-- Settles O32: BLK holds the bytes below the latched length, which are read, padded and absorbed block by block. -/
theorem finalCompletes : Obligations.FinalCompletes := by
  intro s
  refine ⟨decode_encode .final, issue_overrun _ s, issue_badLength s, ?_, ?_, ?_⟩
  · exact fun hidle hlen => issue_phase _ s hidle (.inr ⟨rfl, hlen⟩)
  · exact fun hidle hlen hphase =>
      issue_encode_latches .final s hidle ((operandOk_iff _ _).mpr fun _ => hlen) fun _ => hphase
  · intro p bs hp hbytes hle hblk
    rw [execFinal_written s p bs hp hbytes hle hblk, ← hbytes]
    rfl

/-- Settles O41: the host never looks at the latch, and a completion finds a legal one there. -/
theorem invariantExcludesBadLatch : Obligations.InvariantExcludesBadLatch := by
  intro s h
  by_cases hc : Completes s
  · obtain ⟨i, -, ⟨t, hstep⟩ | ⟨j, -, -, hstep⟩⟩ := step_of_completes_of_inv s h hc <;> rw [hstep] <;> nofun
  · rcases step_of_not_completes s hc with ⟨t, hstep⟩ | hstep <;> rw [hstep]
    · nofun
    · exact hostStep_ne_badLatch _

/-- Settles O42: a legal command can stop on an unwritten byte only, and here there is none. -/
theorem pendingCommandCompletes : Obligations.PendingCommandCompletes := by
  intro s h hc hwritten
  obtain ⟨i, hrun, ⟨t, hstep⟩ | ⟨j, hj, hnone, -⟩⟩ := step_of_completes_of_inv s h hc
  · obtain ⟨-, -, -, -, -, -, hpend, hbusy⟩ := exec_frame i _ t (hrun.symm.trans hstep)
    exact ⟨t, hstep, hbusy, hpend⟩
  · exact absurd hnone (hwritten j hj)

/-- Settles O45: completions and reset set no ERR, and of the host's statements only a write to CMD does. -/
theorem errorsComeOnlyFromCmdWrites : Obligations.ErrorsComeOnlyFromCmdWrites := by
  intro s t h hclear hset
  rcases step_agents s t h with ⟨-, rfl⟩ | ⟨-, p, i, -, -, he⟩ | ⟨-, -, rfl⟩ | ⟨hmoves, hh⟩
  · exact absurd hset nofun
  · rcases exec_error i _ t he with ⟨-, herr, -⟩ | ⟨-, herr, -⟩
    · exact absurd (herr.symm.trans hset) nofun
    · exact absurd (hclear.symm.trans (herr.symm.trans hset)) nofun
  · exact absurd (hclear.symm.trans hset) nofun
  · obtain ⟨v, hq, hcause⟩ := hostStep_sets_err _ t hh hclear hset
    exact ⟨v, ⟨hmoves, hq⟩, hcause⟩

/-- Settles O29: NOP needs no operand and no phase, and its completion only ends the command. -/
theorem nopCompletes : Obligations.NopCompletes :=
  fun s => ⟨decode_encode .nop, issue_overrun _ s, fun hidle => issue_encode_latches .nop s hidle rfl (by simp), rfl⟩

/-- Settles O30: INIT needs no operand and no phase, and its completion is its effect and the command's end. -/
theorem initCompletes : Obligations.InitCompletes :=
  fun s => ⟨decode_encode .init, issue_overrun _ s, fun hidle => issue_encode_latches .init s hidle rfl (by simp), rfl⟩

/-- Settles O33: PERMUTE needs no operand and no phase, and its completion writes back one permutation. -/
theorem permuteCompletes : Obligations.PermuteCompletes :=
  fun s => ⟨decode_encode .permute, issue_overrun _ s,
    fun hidle => issue_encode_latches .permute s hidle rfl (by simp), rfl⟩

/-- Settles O37: the step is a completion, which decodes the latch. -/
theorem stepRunsPendingCommand : Obligations.StepRunsPendingCommand := by
  intro s p i hc hp hd
  rw [step_of_completes s hc]
  exact complete_of_decode _ p i hp hd

end Sys2Proof.Machine
end

section
/-! SUPPORT. Recording an error by the two values of ERR, a range of BLK with an unwritten byte, and the error fields
under a step of the host. -/
namespace Sys2Proof.Machine

/-- The first error stores its cause (R103). -/
theorem raiseError_of_clear (c : ErrCause) (s : State) (hclear : s.status.err = false) :
    raiseError c s = { s with errcause := c, status := { s.status with err := true } } := by
  rw [raiseError, if_neg (by simp [hclear])]
  rfl

/-- A later error finds the first cause recorded and drops its own (R103). -/
theorem raiseError_of_err (c : ErrCause) (s : State) (hset : s.status.err = true) : raiseError c s = s :=
  if_pos hset

/-- A range that holds an unwritten byte cannot answer bytes, so it stops, on the lowest such byte (R105, R117). -/
theorem Memory.readRange_of_unwritten (m : Memory) (n : Nat) (h : ∃ j < n, m.read j = none) :
    ∃ j < n, m.read j = none ∧ m.readRange 0 n = .error (.unwrittenBlk j) := by
  obtain ⟨hlt, hnone⟩ := Nat.find_spec h
  have hlow : ∀ k < Nat.find h, m.read (0 + k) ≠ none := by
    intro k hk hread
    rw [Nat.zero_add] at hread
    exact Nat.find_min h hk ⟨hk.trans hlt, hread⟩
  refine ⟨Nat.find h, hlt, hnone, ?_⟩
  rw [← Nat.zero_add (Nat.find h)] at hnone
  rw [Memory.readRange_fault m n 0 (Nat.find h) hlt hnone hlow, Nat.zero_add]

/-- ABSORB's completion stops where its operand does (R98, R105). -/
theorem execAbsorb_fault (s : State) (f : Fault) (h : s.blk.readRange 0 136 = .error f) :
    exec .absorb s = .fault f := by
  rw [exec, execAbsorb, absorbOperand, h]

/-- FINAL's completion with a legal latched length stops where its operand does (R99, R105). -/
theorem execFinal_fault (s : State) (p : Pending) (f : Fault) (hp : s.pend = some p) (hle : p.len.toNat ≤ 135)
    (h : s.blk.readRange 0 p.len.toNat = .error f) : exec .final s = .fault f := by
  have hlatch : latchedLen s = some p.len.toNat := by simp only [latchedLen, hp, if_pos hle]
  simp only [exec, execFinal, hlatch, finalOperand, h]

/-- While ERR is set no statement of the host changes the error fields: a write to CMD keeps the first cause (R103). -/
theorem hostStep_keeps_error (s t : State) (h : hostStep s = .next t) (hset : s.status.err = true) :
    t.status.err = true ∧ t.errcause = s.errcause := by
  rcases hostStep_engine s t h with
    ⟨-, -, -, hst, hcause⟩ | ⟨a, v, -, -, ⟨-, -, -, hst, hcause⟩ | ⟨-, -, -, -, herr⟩ | ⟨-, -, -, hst, hcause⟩⟩
  · exact ⟨hst ▸ hset, hcause⟩
  · exact ⟨hst ▸ hset, hcause⟩
  · rcases herr with ⟨hsame, hcause⟩ | ⟨herr, hcause, -⟩
    · exact ⟨hsame.trans hset, hcause⟩
    · exact ⟨herr, hcause hset⟩
  · exact ⟨hst ▸ hset, hcause⟩

end Sys2Proof.Machine
end

section
/-! The statements about errors and faults. -/
namespace Sys2Proof.Machine

/-- Settles O34: each completion reads one range of BLK, which stops on its lowest unwritten byte. -/
theorem unwrittenBlkByteFaults : Obligations.UnwrittenBlkByteFaults := by
  intro s
  refine ⟨fun hunwritten => ?_, fun p hp hle hunwritten => ?_⟩
  · obtain ⟨j, hj, hnone, hread⟩ := Memory.readRange_of_unwritten s.blk 136 hunwritten
    exact ⟨j, hj, hnone, execAbsorb_fault s _ hread⟩
  · obtain ⟨j, hj, hnone, hread⟩ := Memory.readRange_of_unwritten s.blk p.len.toNat hunwritten
    exact ⟨j, hj, hnone, execFinal_fault s p _ hp hle hread⟩

/-- Settles O44: reset and INIT's completion clear both fields, and every other step keeps them while ERR is set. -/
theorem errorStaysUntilInitOrReset : Obligations.ErrorStaysUntilInitOrReset := by
  intro s t h hset
  rcases step_agents s t h with ⟨hres, rfl⟩ | ⟨hc, p, i, hp, hop, he⟩ | ⟨-, -, rfl⟩ | ⟨-, hh⟩
  · exact .inr ⟨rfl, rfl, .inl hres⟩
  · rcases exec_error i _ t he with ⟨rfl, herr, hcause⟩ | ⟨-, herr, hcause⟩
    · exact .inr ⟨herr, hcause, .inr ⟨hc, p, hp, hop⟩⟩
    · exact .inl ⟨herr.trans hset, hcause⟩
  · exact .inl ⟨hset, rfl⟩
  · exact .inl (hostStep_keeps_error (setTurns s.turns.tail s) t hh hset)

/-- Settles O27: the two values of ERR give the two outcomes of recording an error. -/
theorem errorKeepsFirstCause : Obligations.ErrorKeepsFirstCause :=
  fun c s => ⟨raiseError_of_clear c s, raiseError_of_err c s⟩

end Sys2Proof.Machine
end

section
/-! SUPPORT. A reset step, what it shares with INIT's completion, and a write of LEN past FINAL's completion. -/
namespace Sys2Proof.Machine

/-- The reset turn is a hardware reset, with the turn taken (R91, R116). -/
theorem step_of_reset_turn (s : State) (ts : List Turn) (h : s.turns = .reset :: ts) :
    step s = .next (hardwareReset (setTurns ts s)) := by
  rw [step, h]

theorem hardwareReset_status_byte (s : State) : (hardwareReset s).status.byte = 0x00 := by
  rw [hardwareReset_status]
  rfl

/-- Reset and INIT's completion, each of any state, agree on S, RC, STATUS and ERRCAUSE (R97, R116). -/
theorem execInit_agrees_with_reset (s s' u : State) (h : exec .init s = .next u) :
    (hardwareReset s').lanes = u.lanes ∧ (hardwareReset s').rc = u.rc ∧ (hardwareReset s').status = u.status ∧
      (hardwareReset s').errcause = u.errcause := by
  obtain rfl : endCommand (initEffect s) = u := Host.Outcome.next.inj h
  exact ⟨rfl, rfl, rfl, rfl⟩

theorem agreeButLen_setLen (v : Byte) (s : State) : AgreeButLen (.next s) (.next (setLen v s)) := rfl

/-- FINAL takes its length from the latch, not from LEN (R95, R123). -/
theorem latchedLen_setLen (v : Byte) (s : State) : latchedLen (setLen v s) = latchedLen s := rfl

theorem finalOperand_setLen (L : Nat) (v : Byte) (s : State) : finalOperand L (setLen v s) = finalOperand L s := rfl

/-- The end of FINAL's completion passes LEN through (R99). -/
theorem endCommand_finalEffect_setLen (bs : List Byte) (v : Byte) (s : State) :
    endCommand (finalEffect bs (setLen v s)) = setLen v (endCommand (finalEffect bs s)) := rfl

/-- A write of LEN changes nothing of FINAL's completion but LEN: the latch, the bytes read and the effect are the
same (R123). -/
theorem execFinal_setLen (v : Byte) (s : State) : AgreeButLen (exec .final s) (exec .final (setLen v s)) := by
  simp only [exec, execFinal, latchedLen_setLen, finalOperand_setLen, endCommand_finalEffect_setLen]
  cases latchedLen s with
  | none => rfl
  | some L =>
    cases hread : finalOperand L s with
    | error f => simp only [hread, AgreeButLen]
    | ok bs => simpa only [hread] using agreeButLen_setLen v _

end Sys2Proof.Machine
end

section
/-! The statements about reset and hazards. -/
namespace Sys2Proof.Machine

/-- Settles O36: FINAL with a legal LEN passes issue in the absorbing phase, and its completion reads the latch. -/
theorem lenIsLatchedAtIssue : Obligations.LenIsLatchedAtIssue := by
  intro v s
  refine ⟨fun hidle hlen hphase => ?_, memWrite_len v s, execFinal_setLen v s⟩
  have hlatches : issue 0x03 s = latchCommand 0x03 s :=
    issue_encode_latches .final s hidle ((operandOk_iff _ _).mpr fun _ => hlen) fun _ => hphase
  rw [hlatches, latchCommand_pend]

/-- Settles O47: of the commands that write S, the invariant lets no ABSORB or FINAL be pending while DONE = 1. -/
theorem whileDoneOnlyInitPermuteResetChangeLanes : Obligations.WhileDoneOnlyInitPermuteResetChangeLanes := by
  intro s t hinv h hdone hne
  have hnotReader : ∀ p, s.pend = some p → ¬ (p.op = 0x02 ∨ p.op = 0x03) := fun p hp hop =>
    absurd (hdone.symm.trans (hinv.pendPhase p hp hop)) nofun
  rcases lanesChangeOnlyByCommands s t h hne with hres | ⟨hc, p, hp, hinit | habsorb | hfinal | hpermute⟩
  · exact .inl hres
  · exact .inr ⟨hc, p, hp, .inl hinit⟩
  · exact absurd (.inl habsorb) (hnotReader p hp)
  · exact absurd (.inr hfinal) (hnotReader p hp)
  · exact .inr ⟨hc, p, hp, .inr hpermute⟩

/-- Settles O38: the step is a hardware reset, whose fields are constants, four of them those of INIT's completion. -/
theorem resetSetsEveryRegister : Obligations.ResetSetsEveryRegister :=
  fun s ts hturn => ⟨_, step_of_reset_turn s ts hturn, rfl, rfl, rfl, fun _ => rfl, rfl,
    hardwareReset_status_byte _, rfl, rfl, fun u hinit => execInit_agrees_with_reset s (setTurns ts s) u hinit⟩

end Sys2Proof.Machine
end
